-- ==== Sys2Proof/Word.lean ====
section
/-! DEFINITION. The two word types of the block (rule R7: DATA_BITS = 8, ADDR_BITS = PORT_BITS = 16).
Byte order, fields and sign extension are in Machine/Bits.lean. -/

namespace Sys2Proof

/-- A byte, `u8` (rule R8): the data of a Cell, an 8-bit register, an I/O value. -/
abbrev Byte := BitVec 8

/-- A word, `u16` (rule R8): an address, a port, a 16-bit register. -/
abbrev Word := BitVec 16

end Sys2Proof
end

