-- ==== Sys2Proof/Machine/Bits.lean ====
section
/-! DEFINITION. Bit fields, byte order and sign extension (00_scope.md rules R8 and R9). -/

namespace Sys2Proof.Machine

/-- `{h, l}`: the word with high byte `h` and low byte `l` (rule R8). -/
def mkWord (h l : Byte) : Word := h ++ l

/-- `hi(w) = w[15:8]` (rule R8). -/
def hi (w : Word) : Byte := w.extractLsb' 8 8

/-- `lo(w) = w[7:0]` (rule R8). -/
def lo (w : Word) : Byte := w.extractLsb' 0 8

/-- `sext_16(d)` (rule R9). -/
def sext16 (d : Byte) : Word := d.signExtend 16

/-- `parity(v)`: true when the byte has an even number of 1 bits (rule R9). -/
def parity (v : Byte) : Bool :=
  !(v.getLsbD 0 ^^ v.getLsbD 1 ^^ v.getLsbD 2 ^^ v.getLsbD 3 ^^
    v.getLsbD 4 ^^ v.getLsbD 5 ^^ v.getLsbD 6 ^^ v.getLsbD 7)

/-- The refresh count: bit 7 is kept and bits 6 to 0 count modulo 128 (rule R45). -/
def bumpR (r : Byte) : Byte := (r &&& 0x80#8) ||| ((r + 1#8) &&& 0x7F#8)

/-- A carry or borrow flag as a byte, for arithmetic modulo 256. -/
def bit8 (c : Bool) : Byte := (BitVec.ofBool c).setWidth 8

/-- A carry or borrow flag as a word, for arithmetic modulo 65536. -/
def bit16 (c : Bool) : Word := (BitVec.ofBool c).setWidth 16

/-- The byte with only bit `b` set, `1 << b` (47_bit.md). -/
def bitMask (b : Fin 8) : Byte := 1#8 <<< b.val

end Sys2Proof.Machine
end

