-- ==== Sys2Proof/Syntax.lean ====
section
/-! DEFINITION. The instructions: `Instr` has one constructor per row of spec/opcode_table.json (rows that share a
mnemonic and a meaning share a constructor and are told apart by a field), and `Form` is the same instructions
by rule of 41_load.md to 49_io.md, with the fields of 30_encoding.md rules R161 and R166. -/

namespace Sys2Proof

/-! ## Register and operation codes (30_encoding.md rule R166) -/

/-- `r[code]` for the codes other than 6. -/
inductive R7 where
  | b | c | d | e | h | l | a
  deriving DecidableEq, Repr

/-- Every 8-bit register an operand can name: `r[code]` and the index halves of rule R172. -/
inductive Reg8 where
  | b | c | d | e | h | l | a | ixh | ixl | iyh | iyl
  deriving DecidableEq, Repr

/-- The index register a prefix selects (rule R171). -/
inductive XY where
  | ix | iy
  deriving DecidableEq, Repr

/-- Every 16-bit register an operand can name. -/
inductive Reg16 where
  | bc | de | hl | sp | af | ix | iy
  deriving DecidableEq, Repr

/-- `rp[code]`. -/
inductive Rp where
  | bc | de | hl | sp
  deriving DecidableEq, Repr

/-- `rp2[code]`. -/
inductive Rp2 where
  | bc | de | hl | af
  deriving DecidableEq, Repr

/-- `cc[code]`. -/
inductive Cond where
  | nz | z | nc | c | po | pe | p | m
  deriving DecidableEq, Repr

/-- `alu[code]`. -/
inductive AluOp where
  | add | adc | sub | sbc | and | xor | or | cp
  deriving DecidableEq, Repr

/-- `rot[code]`. -/
inductive RotOp where
  | rlc | rrc | rl | rr | sla | sra | sll | srl
  deriving DecidableEq, Repr

/-- The source operand of an 8-bit load or accumulator operation (41_load.md, 43_arith8.md rule R400). -/
inductive Src8 where
  | reg (r : Reg8)
  | imm (n : Byte)
  | atHL
  | atIdx (i : XY) (d : Byte)
  deriving DecidableEq, Repr

/-- The memory operand of a read-modify-write or bit instruction. -/
inductive Mem8 where
  | atHL
  | atIdx (i : XY) (d : Byte)
  deriving DecidableEq, Repr

/-- Direction of a block instruction, bit `y[0]` (rule R167). -/
inductive Dir where
  | up | down
  deriving DecidableEq, Repr

/-- `BC` or `DE` as a memory pointer (41_load.md rules R306, R307, R309 and R310). -/
inductive BcDe where
  | bc | de
  deriving DecidableEq, Repr

/-- `r[code]` with its plain meaning. -/
def R7.reg : R7 → Reg8
  | .b => .b | .c => .c | .d => .d | .e => .e | .h => .h | .l => .l | .a => .a

/-- `r[code]` after an index prefix: `r[4]` and `r[5]` are the halves of the index register (rule R172). -/
def R7.sub (i : XY) : R7 → Reg8
  | .b => .b | .c => .c | .d => .d | .e => .e | .a => .a
  | .h => match i with
    | .ix => .ixh
    | .iy => .iyh
  | .l => match i with
    | .ix => .ixl
    | .iy => .iyl

def XY.reg : XY → Reg16
  | .ix => .ix | .iy => .iy

def Rp.reg : Rp → Reg16
  | .bc => .bc | .de => .de | .hl => .hl | .sp => .sp

/-- `rp[code]` after an index prefix: `rp[2]` is the index register (rule R171). -/
def Rp.sub (i : XY) : Rp → Reg16
  | .bc => .bc | .de => .de | .hl => i.reg | .sp => .sp

def Rp2.reg : Rp2 → Reg16
  | .bc => .bc | .de => .de | .hl => .hl | .af => .af

def BcDe.reg : BcDe → Reg16
  | .bc => .bc | .de => .de

/-! ## Instructions by rule -/

/-- One constructor per instruction rule and operand form; `y`, `z`, `p` are code-table fields of the opcode. -/
inductive Form where
  -- 41_load.md
  | ldRR (y z : R7)
  | ldRN (y : R7) (n : Byte)
  | ldRHL (y : R7)
  | ldHLR (z : R7)
  | ldHLN (n : Byte)
  | ldAAt (p : BcDe)
  | ldANn (nn : Word)
  | ldAtA (p : BcDe)
  | ldNnA (nn : Word)
  | ldAI
  | ldAR
  | ldIA
  | ldRA
  | ldRIdx (i : XY) (y : R7) (d : Byte)
  | ldIdxR (i : XY) (z : R7) (d : Byte)
  | ldIdxN (i : XY) (d n : Byte)
  | ldXX (i : XY) (y z : R7)
  | ldXN (i : XY) (y : R7) (n : Byte)
  | ldRpNn (p : Rp) (nn : Word)
  | ldXyNn (i : XY) (nn : Word)
  | ldHLAtNn (nn : Word)
  | ldXyAtNn (i : XY) (nn : Word)
  | ldRpAtNn (p : Rp) (nn : Word)
  | ldNnHL (nn : Word)
  | ldNnXy (i : XY) (nn : Word)
  | ldNnRp (p : Rp) (nn : Word)
  | ldSpHL
  | ldSpXy (i : XY)
  | push (p : Rp2)
  | pushXy (i : XY)
  | pop (p : Rp2)
  | popXy (i : XY)
  -- 42_exchange_block.md
  | exAF
  | exDEHL
  | exx
  | exSpHL
  | exSpXy (i : XY)
  | ldBlock (dir : Dir) (rep : Bool)
  | cpBlock (dir : Dir) (rep : Bool)
  -- 43_arith8.md
  | aluR (op : AluOp) (z : R7)
  | aluN (op : AluOp) (n : Byte)
  | aluHL (op : AluOp)
  | aluIdx (op : AluOp) (i : XY) (d : Byte)
  | aluX (op : AluOp) (i : XY) (z : R7)
  | incR (y : R7)
  | incHL
  | incIdx (i : XY) (d : Byte)
  | incX (i : XY) (y : R7)
  | decR (y : R7)
  | decHL
  | decIdx (i : XY) (d : Byte)
  | decX (i : XY) (y : R7)
  -- 44_control.md
  | daa
  | cpl
  | neg (y : Fin 8)
  | ccf
  | scf
  | nop
  | edNop (op : Byte)
  | halt
  | di
  | ei
  | im (y : Fin 8)
  -- 45_arith16.md
  | addHL (p : Rp)
  | addXy (i : XY) (p : Rp)
  | adcHL (p : Rp)
  | sbcHL (p : Rp)
  | incRp (p : Rp)
  | incXy (i : XY)
  | decRp (p : Rp)
  | decXy (i : XY)
  -- 46_rotate_shift.md
  | rlca
  | rrca
  | rla
  | rra
  | rotR (op : RotOp) (z : R7)
  | rotHL (op : RotOp)
  | rotIdx (op : RotOp) (i : XY) (d : Byte) (copy : Option R7)
  | rld
  | rrd
  -- 47_bit.md
  | bitR (b : Fin 8) (z : R7)
  | bitHL (b : Fin 8)
  | bitIdx (b : Fin 8) (i : XY) (d : Byte) (z : Fin 8)
  | resR (b : Fin 8) (z : R7)
  | resHL (b : Fin 8)
  | resIdx (b : Fin 8) (i : XY) (d : Byte) (copy : Option R7)
  | setR (b : Fin 8) (z : R7)
  | setHL (b : Fin 8)
  | setIdx (b : Fin 8) (i : XY) (d : Byte) (copy : Option R7)
  -- 48_jump_call.md
  | jpNn (nn : Word)
  | jpCc (y : Cond) (nn : Word)
  | jr (e : Byte)
  | jrCc (y : Cond) (e : Byte)
  | djnz (e : Byte)
  | jpHL
  | jpXy (i : XY)
  | callNn (nn : Word)
  | callCc (y : Cond) (nn : Word)
  | ret
  | retCc (y : Cond)
  | reti
  | retn (y : Fin 8)
  | rst (y : Fin 8)
  -- 49_io.md
  | inAN (n : Byte)
  | inRC (y : R7)
  | inFC
  | outNA (n : Byte)
  | outCR (y : R7)
  | outC0
  | inBlock (dir : Dir) (rep : Bool)
  | outBlock (dir : Dir) (rep : Bool)
  -- 30_encoding.md rule R173
  | ignored (i : XY) (op : Byte)
  deriving DecidableEq, Repr


/-! ## The opcode table -/

-- The table's size, not a proof, sets the limit raised here: deriving equality for 1480 constructors.
set_option maxHeartbeats 2000000 in
/-- The instructions of spec/opcode_table.json. Operands: `n`, `nn` immediates, `e` a relative offset, `d` a displacement
(rule R162). A field `y`, `z`, `m` or `op` tells apart rows that share mnemonic and meaning: the `y` code of a mirror of
`NEG` or `RETN`, the `z` code of an XCB `BIT`, `m` the second row of an `IM`, `op` the byte of an `ED NOP`. -/
inductive Instr where
  /-- `NOP` (00), R445. -/
  | nop
  /-- `LD BC,nn` (010000), R321. -/
  | ld_BC_nn (nn : Word)
  /-- `LD (BC),A` (02), R309. -/
  | ld_atBC_A
  /-- `INC BC` (03), R474. -/
  | inc_BC
  /-- `INC B` (04), R410. -/
  | inc_B
  /-- `DEC B` (05), R414. -/
  | dec_B
  /-- `LD B,n` (0600), R302. -/
  | ld_B_n (n : Byte)
  /-- `RLCA` (07), R490. -/
  | rlca
  /-- `EX AF,AF'` (08), R360. -/
  | ex_AF_AF
  /-- `ADD HL,BC` (09), R470. -/
  | add_HL_BC
  /-- `LD A,(BC)` (0A), R306. -/
  | ld_A_atBC
  /-- `DEC BC` (0B), R476. -/
  | dec_BC
  /-- `INC C` (0C), R410. -/
  | inc_C
  /-- `DEC C` (0D), R414. -/
  | dec_C
  /-- `LD C,n` (0E00), R302. -/
  | ld_C_n (n : Byte)
  /-- `RRCA` (0F), R491. -/
  | rrca
  /-- `DJNZ e` (1000), R544. -/
  | djnz_e (e : Byte)
  /-- `LD DE,nn` (110000), R321. -/
  | ld_DE_nn (nn : Word)
  /-- `LD (DE),A` (12), R310. -/
  | ld_atDE_A
  /-- `INC DE` (13), R474. -/
  | inc_DE
  /-- `INC D` (14), R410. -/
  | inc_D
  /-- `DEC D` (15), R414. -/
  | dec_D
  /-- `LD D,n` (1600), R302. -/
  | ld_D_n (n : Byte)
  /-- `RLA` (17), R492. -/
  | rla
  /-- `JR e` (1800), R542. -/
  | jr_e (e : Byte)
  /-- `ADD HL,DE` (19), R470. -/
  | add_HL_DE
  /-- `LD A,(DE)` (1A), R307. -/
  | ld_A_atDE
  /-- `DEC DE` (1B), R476. -/
  | dec_DE
  /-- `INC E` (1C), R410. -/
  | inc_E
  /-- `DEC E` (1D), R414. -/
  | dec_E
  /-- `LD E,n` (1E00), R302. -/
  | ld_E_n (n : Byte)
  /-- `RRA` (1F), R493. -/
  | rra
  /-- `JR NZ,e` (2000), R543. -/
  | jr_NZ_e (e : Byte)
  /-- `LD HL,nn` (210000), R321. -/
  | ld_HL_nn (nn : Word)
  /-- `LD (nn),HL` (220000), R326. -/
  | ld_atnn_HL (nn : Word)
  /-- `INC HL` (23), R474. -/
  | inc_HL
  /-- `INC H` (24), R410. -/
  | inc_H
  /-- `DEC H` (25), R414. -/
  | dec_H
  /-- `LD H,n` (2600), R302. -/
  | ld_H_n (n : Byte)
  /-- `DAA` (27), R440. -/
  | daa
  /-- `JR Z,e` (2800), R543. -/
  | jr_Z_e (e : Byte)
  /-- `ADD HL,HL` (29), R470. -/
  | add_HL_HL
  /-- `LD HL,(nn)` (2A0000), R323. -/
  | ld_HL_atnn (nn : Word)
  /-- `DEC HL` (2B), R476. -/
  | dec_HL
  /-- `INC L` (2C), R410. -/
  | inc_L
  /-- `DEC L` (2D), R414. -/
  | dec_L
  /-- `LD L,n` (2E00), R302. -/
  | ld_L_n (n : Byte)
  /-- `CPL` (2F), R441. -/
  | cpl
  /-- `JR NC,e` (3000), R543. -/
  | jr_NC_e (e : Byte)
  /-- `LD SP,nn` (310000), R321. -/
  | ld_SP_nn (nn : Word)
  /-- `LD (nn),A` (320000), R311. -/
  | ld_atnn_A (nn : Word)
  /-- `INC SP` (33), R474. -/
  | inc_SP
  /-- `INC (HL)` (34), R411. -/
  | inc_atHL
  /-- `DEC (HL)` (35), R415. -/
  | dec_atHL
  /-- `LD (HL),n` (3600), R305. -/
  | ld_atHL_n (n : Byte)
  /-- `SCF` (37), R444. -/
  | scf
  /-- `JR C,e` (3800), R543. -/
  | jr_C_e (e : Byte)
  /-- `ADD HL,SP` (39), R470. -/
  | add_HL_SP
  /-- `LD A,(nn)` (3A0000), R308. -/
  | ld_A_atnn (nn : Word)
  /-- `DEC SP` (3B), R476. -/
  | dec_SP
  /-- `INC A` (3C), R410. -/
  | inc_A
  /-- `DEC A` (3D), R414. -/
  | dec_A
  /-- `LD A,n` (3E00), R302. -/
  | ld_A_n (n : Byte)
  /-- `CCF` (3F), R443. -/
  | ccf
  /-- `LD B,B` (40), R301. -/
  | ld_B_B
  /-- `LD B,C` (41), R301. -/
  | ld_B_C
  /-- `LD B,D` (42), R301. -/
  | ld_B_D
  /-- `LD B,E` (43), R301. -/
  | ld_B_E
  /-- `LD B,H` (44), R301. -/
  | ld_B_H
  /-- `LD B,L` (45), R301. -/
  | ld_B_L
  /-- `LD B,(HL)` (46), R303. -/
  | ld_B_atHL
  /-- `LD B,A` (47), R301. -/
  | ld_B_A
  /-- `LD C,B` (48), R301. -/
  | ld_C_B
  /-- `LD C,C` (49), R301. -/
  | ld_C_C
  /-- `LD C,D` (4A), R301. -/
  | ld_C_D
  /-- `LD C,E` (4B), R301. -/
  | ld_C_E
  /-- `LD C,H` (4C), R301. -/
  | ld_C_H
  /-- `LD C,L` (4D), R301. -/
  | ld_C_L
  /-- `LD C,(HL)` (4E), R303. -/
  | ld_C_atHL
  /-- `LD C,A` (4F), R301. -/
  | ld_C_A
  /-- `LD D,B` (50), R301. -/
  | ld_D_B
  /-- `LD D,C` (51), R301. -/
  | ld_D_C
  /-- `LD D,D` (52), R301. -/
  | ld_D_D
  /-- `LD D,E` (53), R301. -/
  | ld_D_E
  /-- `LD D,H` (54), R301. -/
  | ld_D_H
  /-- `LD D,L` (55), R301. -/
  | ld_D_L
  /-- `LD D,(HL)` (56), R303. -/
  | ld_D_atHL
  /-- `LD D,A` (57), R301. -/
  | ld_D_A
  /-- `LD E,B` (58), R301. -/
  | ld_E_B
  /-- `LD E,C` (59), R301. -/
  | ld_E_C
  /-- `LD E,D` (5A), R301. -/
  | ld_E_D
  /-- `LD E,E` (5B), R301. -/
  | ld_E_E
  /-- `LD E,H` (5C), R301. -/
  | ld_E_H
  /-- `LD E,L` (5D), R301. -/
  | ld_E_L
  /-- `LD E,(HL)` (5E), R303. -/
  | ld_E_atHL
  /-- `LD E,A` (5F), R301. -/
  | ld_E_A
  /-- `LD H,B` (60), R301. -/
  | ld_H_B
  /-- `LD H,C` (61), R301. -/
  | ld_H_C
  /-- `LD H,D` (62), R301. -/
  | ld_H_D
  /-- `LD H,E` (63), R301. -/
  | ld_H_E
  /-- `LD H,H` (64), R301. -/
  | ld_H_H
  /-- `LD H,L` (65), R301. -/
  | ld_H_L
  /-- `LD H,(HL)` (66), R303. -/
  | ld_H_atHL
  /-- `LD H,A` (67), R301. -/
  | ld_H_A
  /-- `LD L,B` (68), R301. -/
  | ld_L_B
  /-- `LD L,C` (69), R301. -/
  | ld_L_C
  /-- `LD L,D` (6A), R301. -/
  | ld_L_D
  /-- `LD L,E` (6B), R301. -/
  | ld_L_E
  /-- `LD L,H` (6C), R301. -/
  | ld_L_H
  /-- `LD L,L` (6D), R301. -/
  | ld_L_L
  /-- `LD L,(HL)` (6E), R303. -/
  | ld_L_atHL
  /-- `LD L,A` (6F), R301. -/
  | ld_L_A
  /-- `LD (HL),B` (70), R304. -/
  | ld_atHL_B
  /-- `LD (HL),C` (71), R304. -/
  | ld_atHL_C
  /-- `LD (HL),D` (72), R304. -/
  | ld_atHL_D
  /-- `LD (HL),E` (73), R304. -/
  | ld_atHL_E
  /-- `LD (HL),H` (74), R304. -/
  | ld_atHL_H
  /-- `LD (HL),L` (75), R304. -/
  | ld_atHL_L
  /-- `HALT` (76), R447. -/
  | halt
  /-- `LD (HL),A` (77), R304. -/
  | ld_atHL_A
  /-- `LD A,B` (78), R301. -/
  | ld_A_B
  /-- `LD A,C` (79), R301. -/
  | ld_A_C
  /-- `LD A,D` (7A), R301. -/
  | ld_A_D
  /-- `LD A,E` (7B), R301. -/
  | ld_A_E
  /-- `LD A,H` (7C), R301. -/
  | ld_A_H
  /-- `LD A,L` (7D), R301. -/
  | ld_A_L
  /-- `LD A,(HL)` (7E), R303. -/
  | ld_A_atHL
  /-- `LD A,A` (7F), R301. -/
  | ld_A_A
  /-- `ADD A,B` (80), R401. -/
  | add_A_B
  /-- `ADD A,C` (81), R401. -/
  | add_A_C
  /-- `ADD A,D` (82), R401. -/
  | add_A_D
  /-- `ADD A,E` (83), R401. -/
  | add_A_E
  /-- `ADD A,H` (84), R401. -/
  | add_A_H
  /-- `ADD A,L` (85), R401. -/
  | add_A_L
  /-- `ADD A,(HL)` (86), R401. -/
  | add_A_atHL
  /-- `ADD A,A` (87), R401. -/
  | add_A_A
  /-- `ADC A,B` (88), R402. -/
  | adc_A_B
  /-- `ADC A,C` (89), R402. -/
  | adc_A_C
  /-- `ADC A,D` (8A), R402. -/
  | adc_A_D
  /-- `ADC A,E` (8B), R402. -/
  | adc_A_E
  /-- `ADC A,H` (8C), R402. -/
  | adc_A_H
  /-- `ADC A,L` (8D), R402. -/
  | adc_A_L
  /-- `ADC A,(HL)` (8E), R402. -/
  | adc_A_atHL
  /-- `ADC A,A` (8F), R402. -/
  | adc_A_A
  /-- `SUB B` (90), R403. -/
  | sub_B
  /-- `SUB C` (91), R403. -/
  | sub_C
  /-- `SUB D` (92), R403. -/
  | sub_D
  /-- `SUB E` (93), R403. -/
  | sub_E
  /-- `SUB H` (94), R403. -/
  | sub_H
  /-- `SUB L` (95), R403. -/
  | sub_L
  /-- `SUB (HL)` (96), R403. -/
  | sub_atHL
  /-- `SUB A` (97), R403. -/
  | sub_A
  /-- `SBC A,B` (98), R404. -/
  | sbc_A_B
  /-- `SBC A,C` (99), R404. -/
  | sbc_A_C
  /-- `SBC A,D` (9A), R404. -/
  | sbc_A_D
  /-- `SBC A,E` (9B), R404. -/
  | sbc_A_E
  /-- `SBC A,H` (9C), R404. -/
  | sbc_A_H
  /-- `SBC A,L` (9D), R404. -/
  | sbc_A_L
  /-- `SBC A,(HL)` (9E), R404. -/
  | sbc_A_atHL
  /-- `SBC A,A` (9F), R404. -/
  | sbc_A_A
  /-- `AND B` (A0), R405. -/
  | and_B
  /-- `AND C` (A1), R405. -/
  | and_C
  /-- `AND D` (A2), R405. -/
  | and_D
  /-- `AND E` (A3), R405. -/
  | and_E
  /-- `AND H` (A4), R405. -/
  | and_H
  /-- `AND L` (A5), R405. -/
  | and_L
  /-- `AND (HL)` (A6), R405. -/
  | and_atHL
  /-- `AND A` (A7), R405. -/
  | and_A
  /-- `XOR B` (A8), R406. -/
  | xor_B
  /-- `XOR C` (A9), R406. -/
  | xor_C
  /-- `XOR D` (AA), R406. -/
  | xor_D
  /-- `XOR E` (AB), R406. -/
  | xor_E
  /-- `XOR H` (AC), R406. -/
  | xor_H
  /-- `XOR L` (AD), R406. -/
  | xor_L
  /-- `XOR (HL)` (AE), R406. -/
  | xor_atHL
  /-- `XOR A` (AF), R406. -/
  | xor_A
  /-- `OR B` (B0), R407. -/
  | or_B
  /-- `OR C` (B1), R407. -/
  | or_C
  /-- `OR D` (B2), R407. -/
  | or_D
  /-- `OR E` (B3), R407. -/
  | or_E
  /-- `OR H` (B4), R407. -/
  | or_H
  /-- `OR L` (B5), R407. -/
  | or_L
  /-- `OR (HL)` (B6), R407. -/
  | or_atHL
  /-- `OR A` (B7), R407. -/
  | or_A
  /-- `CP B` (B8), R408. -/
  | cp_B
  /-- `CP C` (B9), R408. -/
  | cp_C
  /-- `CP D` (BA), R408. -/
  | cp_D
  /-- `CP E` (BB), R408. -/
  | cp_E
  /-- `CP H` (BC), R408. -/
  | cp_H
  /-- `CP L` (BD), R408. -/
  | cp_L
  /-- `CP (HL)` (BE), R408. -/
  | cp_atHL
  /-- `CP A` (BF), R408. -/
  | cp_A
  /-- `RET NZ` (C0), R550. -/
  | ret_NZ
  /-- `POP BC` (C1), R334. -/
  | pop_BC
  /-- `JP NZ,nn` (C20000), R541. -/
  | jp_NZ_nn (nn : Word)
  /-- `JP nn` (C30000), R540. -/
  | jp_nn (nn : Word)
  /-- `CALL NZ,nn` (C40000), R548. -/
  | call_NZ_nn (nn : Word)
  /-- `PUSH BC` (C5), R332. -/
  | push_BC
  /-- `ADD A,n` (C600), R401. -/
  | add_A_n (n : Byte)
  /-- `RST 00H` (C7), R553. -/
  | rst_00H
  /-- `RET Z` (C8), R550. -/
  | ret_Z
  /-- `RET` (C9), R549. -/
  | ret
  /-- `JP Z,nn` (CA0000), R541. -/
  | jp_Z_nn (nn : Word)
  /-- `CALL Z,nn` (CC0000), R548. -/
  | call_Z_nn (nn : Word)
  /-- `CALL nn` (CD0000), R547. -/
  | call_nn (nn : Word)
  /-- `ADC A,n` (CE00), R402. -/
  | adc_A_n (n : Byte)
  /-- `RST 08H` (CF), R553. -/
  | rst_08H
  /-- `RET NC` (D0), R550. -/
  | ret_NC
  /-- `POP DE` (D1), R334. -/
  | pop_DE
  /-- `JP NC,nn` (D20000), R541. -/
  | jp_NC_nn (nn : Word)
  /-- `OUT (n),A` (D300), R574. -/
  | out_atn_A (n : Byte)
  /-- `CALL NC,nn` (D40000), R548. -/
  | call_NC_nn (nn : Word)
  /-- `PUSH DE` (D5), R332. -/
  | push_DE
  /-- `SUB n` (D600), R403. -/
  | sub_n (n : Byte)
  /-- `RST 10H` (D7), R553. -/
  | rst_10H
  /-- `RET C` (D8), R550. -/
  | ret_C
  /-- `EXX` (D9), R362. -/
  | exx
  /-- `JP C,nn` (DA0000), R541. -/
  | jp_C_nn (nn : Word)
  /-- `IN A,(n)` (DB00), R571. -/
  | in_A_atn (n : Byte)
  /-- `CALL C,nn` (DC0000), R548. -/
  | call_C_nn (nn : Word)
  /-- `SBC A,n` (DE00), R404. -/
  | sbc_A_n (n : Byte)
  /-- `RST 18H` (DF), R553. -/
  | rst_18H
  /-- `RET PO` (E0), R550. -/
  | ret_PO
  /-- `POP HL` (E1), R334. -/
  | pop_HL
  /-- `JP PO,nn` (E20000), R541. -/
  | jp_PO_nn (nn : Word)
  /-- `EX (SP),HL` (E3), R363. -/
  | ex_atSP_HL
  /-- `CALL PO,nn` (E40000), R548. -/
  | call_PO_nn (nn : Word)
  /-- `PUSH HL` (E5), R332. -/
  | push_HL
  /-- `AND n` (E600), R405. -/
  | and_n (n : Byte)
  /-- `RST 20H` (E7), R553. -/
  | rst_20H
  /-- `RET PE` (E8), R550. -/
  | ret_PE
  /-- `JP (HL)` (E9), R545. -/
  | jp_atHL
  /-- `JP PE,nn` (EA0000), R541. -/
  | jp_PE_nn (nn : Word)
  /-- `EX DE,HL` (EB), R361. -/
  | ex_DE_HL
  /-- `CALL PE,nn` (EC0000), R548. -/
  | call_PE_nn (nn : Word)
  /-- `XOR n` (EE00), R406. -/
  | xor_n (n : Byte)
  /-- `RST 28H` (EF), R553. -/
  | rst_28H
  /-- `RET P` (F0), R550. -/
  | ret_P
  /-- `POP AF` (F1), R334. -/
  | pop_AF
  /-- `JP P,nn` (F20000), R541. -/
  | jp_P_nn (nn : Word)
  /-- `DI` (F3), R448. -/
  | di
  /-- `CALL P,nn` (F40000), R548. -/
  | call_P_nn (nn : Word)
  /-- `PUSH AF` (F5), R332. -/
  | push_AF
  /-- `OR n` (F600), R407. -/
  | or_n (n : Byte)
  /-- `RST 30H` (F7), R553. -/
  | rst_30H
  /-- `RET M` (F8), R550. -/
  | ret_M
  /-- `LD SP,HL` (F9), R329. -/
  | ld_SP_HL
  /-- `JP M,nn` (FA0000), R541. -/
  | jp_M_nn (nn : Word)
  /-- `EI` (FB), R449. -/
  | ei
  /-- `CALL M,nn` (FC0000), R548. -/
  | call_M_nn (nn : Word)
  /-- `CP n` (FE00), R408. -/
  | cp_n (n : Byte)
  /-- `RST 38H` (FF), R553. -/
  | rst_38H
  /-- `RLC B` (CB00), R495. -/
  | rlc_B
  /-- `RLC C` (CB01), R495. -/
  | rlc_C
  /-- `RLC D` (CB02), R495. -/
  | rlc_D
  /-- `RLC E` (CB03), R495. -/
  | rlc_E
  /-- `RLC H` (CB04), R495. -/
  | rlc_H
  /-- `RLC L` (CB05), R495. -/
  | rlc_L
  /-- `RLC (HL)` (CB06), R495. -/
  | rlc_atHL
  /-- `RLC A` (CB07), R495. -/
  | rlc_A
  /-- `RRC B` (CB08), R496. -/
  | rrc_B
  /-- `RRC C` (CB09), R496. -/
  | rrc_C
  /-- `RRC D` (CB0A), R496. -/
  | rrc_D
  /-- `RRC E` (CB0B), R496. -/
  | rrc_E
  /-- `RRC H` (CB0C), R496. -/
  | rrc_H
  /-- `RRC L` (CB0D), R496. -/
  | rrc_L
  /-- `RRC (HL)` (CB0E), R496. -/
  | rrc_atHL
  /-- `RRC A` (CB0F), R496. -/
  | rrc_A
  /-- `RL B` (CB10), R497. -/
  | rl_B
  /-- `RL C` (CB11), R497. -/
  | rl_C
  /-- `RL D` (CB12), R497. -/
  | rl_D
  /-- `RL E` (CB13), R497. -/
  | rl_E
  /-- `RL H` (CB14), R497. -/
  | rl_H
  /-- `RL L` (CB15), R497. -/
  | rl_L
  /-- `RL (HL)` (CB16), R497. -/
  | rl_atHL
  /-- `RL A` (CB17), R497. -/
  | rl_A
  /-- `RR B` (CB18), R498. -/
  | rr_B
  /-- `RR C` (CB19), R498. -/
  | rr_C
  /-- `RR D` (CB1A), R498. -/
  | rr_D
  /-- `RR E` (CB1B), R498. -/
  | rr_E
  /-- `RR H` (CB1C), R498. -/
  | rr_H
  /-- `RR L` (CB1D), R498. -/
  | rr_L
  /-- `RR (HL)` (CB1E), R498. -/
  | rr_atHL
  /-- `RR A` (CB1F), R498. -/
  | rr_A
  /-- `SLA B` (CB20), R499. -/
  | sla_B
  /-- `SLA C` (CB21), R499. -/
  | sla_C
  /-- `SLA D` (CB22), R499. -/
  | sla_D
  /-- `SLA E` (CB23), R499. -/
  | sla_E
  /-- `SLA H` (CB24), R499. -/
  | sla_H
  /-- `SLA L` (CB25), R499. -/
  | sla_L
  /-- `SLA (HL)` (CB26), R499. -/
  | sla_atHL
  /-- `SLA A` (CB27), R499. -/
  | sla_A
  /-- `SRA B` (CB28), R500. -/
  | sra_B
  /-- `SRA C` (CB29), R500. -/
  | sra_C
  /-- `SRA D` (CB2A), R500. -/
  | sra_D
  /-- `SRA E` (CB2B), R500. -/
  | sra_E
  /-- `SRA H` (CB2C), R500. -/
  | sra_H
  /-- `SRA L` (CB2D), R500. -/
  | sra_L
  /-- `SRA (HL)` (CB2E), R500. -/
  | sra_atHL
  /-- `SRA A` (CB2F), R500. -/
  | sra_A
  /-- `SLL B` (CB30), R501. -/
  | sll_B
  /-- `SLL C` (CB31), R501. -/
  | sll_C
  /-- `SLL D` (CB32), R501. -/
  | sll_D
  /-- `SLL E` (CB33), R501. -/
  | sll_E
  /-- `SLL H` (CB34), R501. -/
  | sll_H
  /-- `SLL L` (CB35), R501. -/
  | sll_L
  /-- `SLL (HL)` (CB36), R501. -/
  | sll_atHL
  /-- `SLL A` (CB37), R501. -/
  | sll_A
  /-- `SRL B` (CB38), R502. -/
  | srl_B
  /-- `SRL C` (CB39), R502. -/
  | srl_C
  /-- `SRL D` (CB3A), R502. -/
  | srl_D
  /-- `SRL E` (CB3B), R502. -/
  | srl_E
  /-- `SRL H` (CB3C), R502. -/
  | srl_H
  /-- `SRL L` (CB3D), R502. -/
  | srl_L
  /-- `SRL (HL)` (CB3E), R502. -/
  | srl_atHL
  /-- `SRL A` (CB3F), R502. -/
  | srl_A
  /-- `BIT 0,B` (CB40), R520. -/
  | bit_0_B
  /-- `BIT 0,C` (CB41), R520. -/
  | bit_0_C
  /-- `BIT 0,D` (CB42), R520. -/
  | bit_0_D
  /-- `BIT 0,E` (CB43), R520. -/
  | bit_0_E
  /-- `BIT 0,H` (CB44), R520. -/
  | bit_0_H
  /-- `BIT 0,L` (CB45), R520. -/
  | bit_0_L
  /-- `BIT 0,(HL)` (CB46), R521. -/
  | bit_0_atHL
  /-- `BIT 0,A` (CB47), R520. -/
  | bit_0_A
  /-- `BIT 1,B` (CB48), R520. -/
  | bit_1_B
  /-- `BIT 1,C` (CB49), R520. -/
  | bit_1_C
  /-- `BIT 1,D` (CB4A), R520. -/
  | bit_1_D
  /-- `BIT 1,E` (CB4B), R520. -/
  | bit_1_E
  /-- `BIT 1,H` (CB4C), R520. -/
  | bit_1_H
  /-- `BIT 1,L` (CB4D), R520. -/
  | bit_1_L
  /-- `BIT 1,(HL)` (CB4E), R521. -/
  | bit_1_atHL
  /-- `BIT 1,A` (CB4F), R520. -/
  | bit_1_A
  /-- `BIT 2,B` (CB50), R520. -/
  | bit_2_B
  /-- `BIT 2,C` (CB51), R520. -/
  | bit_2_C
  /-- `BIT 2,D` (CB52), R520. -/
  | bit_2_D
  /-- `BIT 2,E` (CB53), R520. -/
  | bit_2_E
  /-- `BIT 2,H` (CB54), R520. -/
  | bit_2_H
  /-- `BIT 2,L` (CB55), R520. -/
  | bit_2_L
  /-- `BIT 2,(HL)` (CB56), R521. -/
  | bit_2_atHL
  /-- `BIT 2,A` (CB57), R520. -/
  | bit_2_A
  /-- `BIT 3,B` (CB58), R520. -/
  | bit_3_B
  /-- `BIT 3,C` (CB59), R520. -/
  | bit_3_C
  /-- `BIT 3,D` (CB5A), R520. -/
  | bit_3_D
  /-- `BIT 3,E` (CB5B), R520. -/
  | bit_3_E
  /-- `BIT 3,H` (CB5C), R520. -/
  | bit_3_H
  /-- `BIT 3,L` (CB5D), R520. -/
  | bit_3_L
  /-- `BIT 3,(HL)` (CB5E), R521. -/
  | bit_3_atHL
  /-- `BIT 3,A` (CB5F), R520. -/
  | bit_3_A
  /-- `BIT 4,B` (CB60), R520. -/
  | bit_4_B
  /-- `BIT 4,C` (CB61), R520. -/
  | bit_4_C
  /-- `BIT 4,D` (CB62), R520. -/
  | bit_4_D
  /-- `BIT 4,E` (CB63), R520. -/
  | bit_4_E
  /-- `BIT 4,H` (CB64), R520. -/
  | bit_4_H
  /-- `BIT 4,L` (CB65), R520. -/
  | bit_4_L
  /-- `BIT 4,(HL)` (CB66), R521. -/
  | bit_4_atHL
  /-- `BIT 4,A` (CB67), R520. -/
  | bit_4_A
  /-- `BIT 5,B` (CB68), R520. -/
  | bit_5_B
  /-- `BIT 5,C` (CB69), R520. -/
  | bit_5_C
  /-- `BIT 5,D` (CB6A), R520. -/
  | bit_5_D
  /-- `BIT 5,E` (CB6B), R520. -/
  | bit_5_E
  /-- `BIT 5,H` (CB6C), R520. -/
  | bit_5_H
  /-- `BIT 5,L` (CB6D), R520. -/
  | bit_5_L
  /-- `BIT 5,(HL)` (CB6E), R521. -/
  | bit_5_atHL
  /-- `BIT 5,A` (CB6F), R520. -/
  | bit_5_A
  /-- `BIT 6,B` (CB70), R520. -/
  | bit_6_B
  /-- `BIT 6,C` (CB71), R520. -/
  | bit_6_C
  /-- `BIT 6,D` (CB72), R520. -/
  | bit_6_D
  /-- `BIT 6,E` (CB73), R520. -/
  | bit_6_E
  /-- `BIT 6,H` (CB74), R520. -/
  | bit_6_H
  /-- `BIT 6,L` (CB75), R520. -/
  | bit_6_L
  /-- `BIT 6,(HL)` (CB76), R521. -/
  | bit_6_atHL
  /-- `BIT 6,A` (CB77), R520. -/
  | bit_6_A
  /-- `BIT 7,B` (CB78), R520. -/
  | bit_7_B
  /-- `BIT 7,C` (CB79), R520. -/
  | bit_7_C
  /-- `BIT 7,D` (CB7A), R520. -/
  | bit_7_D
  /-- `BIT 7,E` (CB7B), R520. -/
  | bit_7_E
  /-- `BIT 7,H` (CB7C), R520. -/
  | bit_7_H
  /-- `BIT 7,L` (CB7D), R520. -/
  | bit_7_L
  /-- `BIT 7,(HL)` (CB7E), R521. -/
  | bit_7_atHL
  /-- `BIT 7,A` (CB7F), R520. -/
  | bit_7_A
  /-- `RES 0,B` (CB80), R523. -/
  | res_0_B
  /-- `RES 0,C` (CB81), R523. -/
  | res_0_C
  /-- `RES 0,D` (CB82), R523. -/
  | res_0_D
  /-- `RES 0,E` (CB83), R523. -/
  | res_0_E
  /-- `RES 0,H` (CB84), R523. -/
  | res_0_H
  /-- `RES 0,L` (CB85), R523. -/
  | res_0_L
  /-- `RES 0,(HL)` (CB86), R524. -/
  | res_0_atHL
  /-- `RES 0,A` (CB87), R523. -/
  | res_0_A
  /-- `RES 1,B` (CB88), R523. -/
  | res_1_B
  /-- `RES 1,C` (CB89), R523. -/
  | res_1_C
  /-- `RES 1,D` (CB8A), R523. -/
  | res_1_D
  /-- `RES 1,E` (CB8B), R523. -/
  | res_1_E
  /-- `RES 1,H` (CB8C), R523. -/
  | res_1_H
  /-- `RES 1,L` (CB8D), R523. -/
  | res_1_L
  /-- `RES 1,(HL)` (CB8E), R524. -/
  | res_1_atHL
  /-- `RES 1,A` (CB8F), R523. -/
  | res_1_A
  /-- `RES 2,B` (CB90), R523. -/
  | res_2_B
  /-- `RES 2,C` (CB91), R523. -/
  | res_2_C
  /-- `RES 2,D` (CB92), R523. -/
  | res_2_D
  /-- `RES 2,E` (CB93), R523. -/
  | res_2_E
  /-- `RES 2,H` (CB94), R523. -/
  | res_2_H
  /-- `RES 2,L` (CB95), R523. -/
  | res_2_L
  /-- `RES 2,(HL)` (CB96), R524. -/
  | res_2_atHL
  /-- `RES 2,A` (CB97), R523. -/
  | res_2_A
  /-- `RES 3,B` (CB98), R523. -/
  | res_3_B
  /-- `RES 3,C` (CB99), R523. -/
  | res_3_C
  /-- `RES 3,D` (CB9A), R523. -/
  | res_3_D
  /-- `RES 3,E` (CB9B), R523. -/
  | res_3_E
  /-- `RES 3,H` (CB9C), R523. -/
  | res_3_H
  /-- `RES 3,L` (CB9D), R523. -/
  | res_3_L
  /-- `RES 3,(HL)` (CB9E), R524. -/
  | res_3_atHL
  /-- `RES 3,A` (CB9F), R523. -/
  | res_3_A
  /-- `RES 4,B` (CBA0), R523. -/
  | res_4_B
  /-- `RES 4,C` (CBA1), R523. -/
  | res_4_C
  /-- `RES 4,D` (CBA2), R523. -/
  | res_4_D
  /-- `RES 4,E` (CBA3), R523. -/
  | res_4_E
  /-- `RES 4,H` (CBA4), R523. -/
  | res_4_H
  /-- `RES 4,L` (CBA5), R523. -/
  | res_4_L
  /-- `RES 4,(HL)` (CBA6), R524. -/
  | res_4_atHL
  /-- `RES 4,A` (CBA7), R523. -/
  | res_4_A
  /-- `RES 5,B` (CBA8), R523. -/
  | res_5_B
  /-- `RES 5,C` (CBA9), R523. -/
  | res_5_C
  /-- `RES 5,D` (CBAA), R523. -/
  | res_5_D
  /-- `RES 5,E` (CBAB), R523. -/
  | res_5_E
  /-- `RES 5,H` (CBAC), R523. -/
  | res_5_H
  /-- `RES 5,L` (CBAD), R523. -/
  | res_5_L
  /-- `RES 5,(HL)` (CBAE), R524. -/
  | res_5_atHL
  /-- `RES 5,A` (CBAF), R523. -/
  | res_5_A
  /-- `RES 6,B` (CBB0), R523. -/
  | res_6_B
  /-- `RES 6,C` (CBB1), R523. -/
  | res_6_C
  /-- `RES 6,D` (CBB2), R523. -/
  | res_6_D
  /-- `RES 6,E` (CBB3), R523. -/
  | res_6_E
  /-- `RES 6,H` (CBB4), R523. -/
  | res_6_H
  /-- `RES 6,L` (CBB5), R523. -/
  | res_6_L
  /-- `RES 6,(HL)` (CBB6), R524. -/
  | res_6_atHL
  /-- `RES 6,A` (CBB7), R523. -/
  | res_6_A
  /-- `RES 7,B` (CBB8), R523. -/
  | res_7_B
  /-- `RES 7,C` (CBB9), R523. -/
  | res_7_C
  /-- `RES 7,D` (CBBA), R523. -/
  | res_7_D
  /-- `RES 7,E` (CBBB), R523. -/
  | res_7_E
  /-- `RES 7,H` (CBBC), R523. -/
  | res_7_H
  /-- `RES 7,L` (CBBD), R523. -/
  | res_7_L
  /-- `RES 7,(HL)` (CBBE), R524. -/
  | res_7_atHL
  /-- `RES 7,A` (CBBF), R523. -/
  | res_7_A
  /-- `SET 0,B` (CBC0), R526. -/
  | set_0_B
  /-- `SET 0,C` (CBC1), R526. -/
  | set_0_C
  /-- `SET 0,D` (CBC2), R526. -/
  | set_0_D
  /-- `SET 0,E` (CBC3), R526. -/
  | set_0_E
  /-- `SET 0,H` (CBC4), R526. -/
  | set_0_H
  /-- `SET 0,L` (CBC5), R526. -/
  | set_0_L
  /-- `SET 0,(HL)` (CBC6), R527. -/
  | set_0_atHL
  /-- `SET 0,A` (CBC7), R526. -/
  | set_0_A
  /-- `SET 1,B` (CBC8), R526. -/
  | set_1_B
  /-- `SET 1,C` (CBC9), R526. -/
  | set_1_C
  /-- `SET 1,D` (CBCA), R526. -/
  | set_1_D
  /-- `SET 1,E` (CBCB), R526. -/
  | set_1_E
  /-- `SET 1,H` (CBCC), R526. -/
  | set_1_H
  /-- `SET 1,L` (CBCD), R526. -/
  | set_1_L
  /-- `SET 1,(HL)` (CBCE), R527. -/
  | set_1_atHL
  /-- `SET 1,A` (CBCF), R526. -/
  | set_1_A
  /-- `SET 2,B` (CBD0), R526. -/
  | set_2_B
  /-- `SET 2,C` (CBD1), R526. -/
  | set_2_C
  /-- `SET 2,D` (CBD2), R526. -/
  | set_2_D
  /-- `SET 2,E` (CBD3), R526. -/
  | set_2_E
  /-- `SET 2,H` (CBD4), R526. -/
  | set_2_H
  /-- `SET 2,L` (CBD5), R526. -/
  | set_2_L
  /-- `SET 2,(HL)` (CBD6), R527. -/
  | set_2_atHL
  /-- `SET 2,A` (CBD7), R526. -/
  | set_2_A
  /-- `SET 3,B` (CBD8), R526. -/
  | set_3_B
  /-- `SET 3,C` (CBD9), R526. -/
  | set_3_C
  /-- `SET 3,D` (CBDA), R526. -/
  | set_3_D
  /-- `SET 3,E` (CBDB), R526. -/
  | set_3_E
  /-- `SET 3,H` (CBDC), R526. -/
  | set_3_H
  /-- `SET 3,L` (CBDD), R526. -/
  | set_3_L
  /-- `SET 3,(HL)` (CBDE), R527. -/
  | set_3_atHL
  /-- `SET 3,A` (CBDF), R526. -/
  | set_3_A
  /-- `SET 4,B` (CBE0), R526. -/
  | set_4_B
  /-- `SET 4,C` (CBE1), R526. -/
  | set_4_C
  /-- `SET 4,D` (CBE2), R526. -/
  | set_4_D
  /-- `SET 4,E` (CBE3), R526. -/
  | set_4_E
  /-- `SET 4,H` (CBE4), R526. -/
  | set_4_H
  /-- `SET 4,L` (CBE5), R526. -/
  | set_4_L
  /-- `SET 4,(HL)` (CBE6), R527. -/
  | set_4_atHL
  /-- `SET 4,A` (CBE7), R526. -/
  | set_4_A
  /-- `SET 5,B` (CBE8), R526. -/
  | set_5_B
  /-- `SET 5,C` (CBE9), R526. -/
  | set_5_C
  /-- `SET 5,D` (CBEA), R526. -/
  | set_5_D
  /-- `SET 5,E` (CBEB), R526. -/
  | set_5_E
  /-- `SET 5,H` (CBEC), R526. -/
  | set_5_H
  /-- `SET 5,L` (CBED), R526. -/
  | set_5_L
  /-- `SET 5,(HL)` (CBEE), R527. -/
  | set_5_atHL
  /-- `SET 5,A` (CBEF), R526. -/
  | set_5_A
  /-- `SET 6,B` (CBF0), R526. -/
  | set_6_B
  /-- `SET 6,C` (CBF1), R526. -/
  | set_6_C
  /-- `SET 6,D` (CBF2), R526. -/
  | set_6_D
  /-- `SET 6,E` (CBF3), R526. -/
  | set_6_E
  /-- `SET 6,H` (CBF4), R526. -/
  | set_6_H
  /-- `SET 6,L` (CBF5), R526. -/
  | set_6_L
  /-- `SET 6,(HL)` (CBF6), R527. -/
  | set_6_atHL
  /-- `SET 6,A` (CBF7), R526. -/
  | set_6_A
  /-- `SET 7,B` (CBF8), R526. -/
  | set_7_B
  /-- `SET 7,C` (CBF9), R526. -/
  | set_7_C
  /-- `SET 7,D` (CBFA), R526. -/
  | set_7_D
  /-- `SET 7,E` (CBFB), R526. -/
  | set_7_E
  /-- `SET 7,H` (CBFC), R526. -/
  | set_7_H
  /-- `SET 7,L` (CBFD), R526. -/
  | set_7_L
  /-- `SET 7,(HL)` (CBFE), R527. -/
  | set_7_atHL
  /-- `SET 7,A` (CBFF), R526. -/
  | set_7_A
  /-- `ED NOP` (ED00 and mirrors), R446. -/
  | edNop (op : Byte)
  /-- `IN B,(C)` (ED40), R572. -/
  | in_B_atC
  /-- `OUT (C),B` (ED41), R575. -/
  | out_atC_B
  /-- `SBC HL,BC` (ED42), R473. -/
  | sbc_HL_BC
  /-- `LD (nn),BC` (ED430000), R328. -/
  | ld_atnn_BC (nn : Word)
  /-- `NEG` (ED44 and mirrors), R442. -/
  | neg (y : Fin 8)
  /-- `RETN` (ED45 and mirrors), R552. -/
  | retn (y : Fin 8)
  /-- `IM 0` (ED46 and mirrors), R452. -/
  | im_0 (m : Bool)
  /-- `LD I,A` (ED47), R314. -/
  | ld_I_A
  /-- `IN C,(C)` (ED48), R572. -/
  | in_C_atC
  /-- `OUT (C),C` (ED49), R575. -/
  | out_atC_C
  /-- `ADC HL,BC` (ED4A), R472. -/
  | adc_HL_BC
  /-- `LD BC,(nn)` (ED4B0000), R325. -/
  | ld_BC_atnn (nn : Word)
  /-- `RETI` (ED4D), R551. -/
  | reti
  /-- `IM 0/1` (ED4E and mirrors), R452. -/
  | im_0_1 (m : Bool)
  /-- `LD R,A` (ED4F), R315. -/
  | ld_R_A
  /-- `IN D,(C)` (ED50), R572. -/
  | in_D_atC
  /-- `OUT (C),D` (ED51), R575. -/
  | out_atC_D
  /-- `SBC HL,DE` (ED52), R473. -/
  | sbc_HL_DE
  /-- `LD (nn),DE` (ED530000), R328. -/
  | ld_atnn_DE (nn : Word)
  /-- `IM 1` (ED56 and mirrors), R452. -/
  | im_1 (m : Bool)
  /-- `LD A,I` (ED57), R312. -/
  | ld_A_I
  /-- `IN E,(C)` (ED58), R572. -/
  | in_E_atC
  /-- `OUT (C),E` (ED59), R575. -/
  | out_atC_E
  /-- `ADC HL,DE` (ED5A), R472. -/
  | adc_HL_DE
  /-- `LD DE,(nn)` (ED5B0000), R325. -/
  | ld_DE_atnn (nn : Word)
  /-- `IM 2` (ED5E and mirrors), R452. -/
  | im_2 (m : Bool)
  /-- `LD A,R` (ED5F), R313. -/
  | ld_A_R
  /-- `IN H,(C)` (ED60), R572. -/
  | in_H_atC
  /-- `OUT (C),H` (ED61), R575. -/
  | out_atC_H
  /-- `SBC HL,HL` (ED62), R473. -/
  | sbc_HL_HL
  /-- `LD (nn),HL` (ED630000), R328. -/
  | ld_atnn_HL_ed (nn : Word)
  /-- `RRD` (ED67), R504. -/
  | rrd
  /-- `IN L,(C)` (ED68), R572. -/
  | in_L_atC
  /-- `OUT (C),L` (ED69), R575. -/
  | out_atC_L
  /-- `ADC HL,HL` (ED6A), R472. -/
  | adc_HL_HL
  /-- `LD HL,(nn)` (ED6B0000), R325. -/
  | ld_HL_atnn_ed (nn : Word)
  /-- `RLD` (ED6F), R503. -/
  | rld
  /-- `IN F,(C)` (ED70), R573. -/
  | in_F_atC
  /-- `OUT (C),0` (ED71), R576. -/
  | out_atC_0
  /-- `SBC HL,SP` (ED72), R473. -/
  | sbc_HL_SP
  /-- `LD (nn),SP` (ED730000), R328. -/
  | ld_atnn_SP (nn : Word)
  /-- `IN A,(C)` (ED78), R572. -/
  | in_A_atC
  /-- `OUT (C),A` (ED79), R575. -/
  | out_atC_A
  /-- `ADC HL,SP` (ED7A), R472. -/
  | adc_HL_SP
  /-- `LD SP,(nn)` (ED7B0000), R325. -/
  | ld_SP_atnn (nn : Word)
  /-- `LDI` (EDA0), R366. -/
  | ldi
  /-- `CPI` (EDA1), R370. -/
  | cpi
  /-- `INI` (EDA2), R578. -/
  | ini
  /-- `OUTI` (EDA3), R582. -/
  | outi
  /-- `LDD` (EDA8), R368. -/
  | ldd
  /-- `CPD` (EDA9), R372. -/
  | cpd
  /-- `IND` (EDAA), R580. -/
  | ind
  /-- `OUTD` (EDAB), R584. -/
  | outd
  /-- `LDIR` (EDB0), R367. -/
  | ldir
  /-- `CPIR` (EDB1), R371. -/
  | cpir
  /-- `INIR` (EDB2), R579. -/
  | inir
  /-- `OTIR` (EDB3), R583. -/
  | otir
  /-- `LDDR` (EDB8), R369. -/
  | lddr
  /-- `CPDR` (EDB9), R373. -/
  | cpdr
  /-- `INDR` (EDBA), R581. -/
  | indr
  /-- `OTDR` (EDBB), R585. -/
  | otdr
  /-- `(DD ignored) NOP` (DD00), R173. -/
  | ddIgnored_NOP
  /-- `(DD ignored) LD BC,nn` (DD01), R173. -/
  | ddIgnored_LD_BC_nn
  /-- `(DD ignored) LD (BC),A` (DD02), R173. -/
  | ddIgnored_LD_atBC_A
  /-- `(DD ignored) INC BC` (DD03), R173. -/
  | ddIgnored_INC_BC
  /-- `(DD ignored) INC B` (DD04), R173. -/
  | ddIgnored_INC_B
  /-- `(DD ignored) DEC B` (DD05), R173. -/
  | ddIgnored_DEC_B
  /-- `(DD ignored) LD B,n` (DD06), R173. -/
  | ddIgnored_LD_B_n
  /-- `(DD ignored) RLCA` (DD07), R173. -/
  | ddIgnored_RLCA
  /-- `(DD ignored) EX AF,AF'` (DD08), R173. -/
  | ddIgnored_EX_AF_AF
  /-- `ADD IX,BC` (DD09), R471. -/
  | add_IX_BC
  /-- `(DD ignored) LD A,(BC)` (DD0A), R173. -/
  | ddIgnored_LD_A_atBC
  /-- `(DD ignored) DEC BC` (DD0B), R173. -/
  | ddIgnored_DEC_BC
  /-- `(DD ignored) INC C` (DD0C), R173. -/
  | ddIgnored_INC_C
  /-- `(DD ignored) DEC C` (DD0D), R173. -/
  | ddIgnored_DEC_C
  /-- `(DD ignored) LD C,n` (DD0E), R173. -/
  | ddIgnored_LD_C_n
  /-- `(DD ignored) RRCA` (DD0F), R173. -/
  | ddIgnored_RRCA
  /-- `(DD ignored) DJNZ e` (DD10), R173. -/
  | ddIgnored_DJNZ_e
  /-- `(DD ignored) LD DE,nn` (DD11), R173. -/
  | ddIgnored_LD_DE_nn
  /-- `(DD ignored) LD (DE),A` (DD12), R173. -/
  | ddIgnored_LD_atDE_A
  /-- `(DD ignored) INC DE` (DD13), R173. -/
  | ddIgnored_INC_DE
  /-- `(DD ignored) INC D` (DD14), R173. -/
  | ddIgnored_INC_D
  /-- `(DD ignored) DEC D` (DD15), R173. -/
  | ddIgnored_DEC_D
  /-- `(DD ignored) LD D,n` (DD16), R173. -/
  | ddIgnored_LD_D_n
  /-- `(DD ignored) RLA` (DD17), R173. -/
  | ddIgnored_RLA
  /-- `(DD ignored) JR e` (DD18), R173. -/
  | ddIgnored_JR_e
  /-- `ADD IX,DE` (DD19), R471. -/
  | add_IX_DE
  /-- `(DD ignored) LD A,(DE)` (DD1A), R173. -/
  | ddIgnored_LD_A_atDE
  /-- `(DD ignored) DEC DE` (DD1B), R173. -/
  | ddIgnored_DEC_DE
  /-- `(DD ignored) INC E` (DD1C), R173. -/
  | ddIgnored_INC_E
  /-- `(DD ignored) DEC E` (DD1D), R173. -/
  | ddIgnored_DEC_E
  /-- `(DD ignored) LD E,n` (DD1E), R173. -/
  | ddIgnored_LD_E_n
  /-- `(DD ignored) RRA` (DD1F), R173. -/
  | ddIgnored_RRA
  /-- `(DD ignored) JR NZ,e` (DD20), R173. -/
  | ddIgnored_JR_NZ_e
  /-- `LD IX,nn` (DD210000), R322. -/
  | ld_IX_nn (nn : Word)
  /-- `LD (nn),IX` (DD220000), R327. -/
  | ld_atnn_IX (nn : Word)
  /-- `INC IX` (DD23), R475. -/
  | inc_IX
  /-- `INC IXH` (DD24), R413. -/
  | inc_IXH
  /-- `DEC IXH` (DD25), R417. -/
  | dec_IXH
  /-- `LD IXH,n` (DD2600), R320. -/
  | ld_IXH_n (n : Byte)
  /-- `(DD ignored) DAA` (DD27), R173. -/
  | ddIgnored_DAA
  /-- `(DD ignored) JR Z,e` (DD28), R173. -/
  | ddIgnored_JR_Z_e
  /-- `ADD IX,IX` (DD29), R471. -/
  | add_IX_IX
  /-- `LD IX,(nn)` (DD2A0000), R324. -/
  | ld_IX_atnn (nn : Word)
  /-- `DEC IX` (DD2B), R477. -/
  | dec_IX
  /-- `INC IXL` (DD2C), R413. -/
  | inc_IXL
  /-- `DEC IXL` (DD2D), R417. -/
  | dec_IXL
  /-- `LD IXL,n` (DD2E00), R320. -/
  | ld_IXL_n (n : Byte)
  /-- `(DD ignored) CPL` (DD2F), R173. -/
  | ddIgnored_CPL
  /-- `(DD ignored) JR NC,e` (DD30), R173. -/
  | ddIgnored_JR_NC_e
  /-- `(DD ignored) LD SP,nn` (DD31), R173. -/
  | ddIgnored_LD_SP_nn
  /-- `(DD ignored) LD (nn),A` (DD32), R173. -/
  | ddIgnored_LD_atnn_A
  /-- `(DD ignored) INC SP` (DD33), R173. -/
  | ddIgnored_INC_SP
  /-- `INC (IX+d)` (DD3400), R412. -/
  | inc_atIXd (d : Byte)
  /-- `DEC (IX+d)` (DD3500), R416. -/
  | dec_atIXd (d : Byte)
  /-- `LD (IX+d),n` (DD360000), R318. -/
  | ld_atIXd_n (d : Byte) (n : Byte)
  /-- `(DD ignored) SCF` (DD37), R173. -/
  | ddIgnored_SCF
  /-- `(DD ignored) JR C,e` (DD38), R173. -/
  | ddIgnored_JR_C_e
  /-- `ADD IX,SP` (DD39), R471. -/
  | add_IX_SP
  /-- `(DD ignored) LD A,(nn)` (DD3A), R173. -/
  | ddIgnored_LD_A_atnn
  /-- `(DD ignored) DEC SP` (DD3B), R173. -/
  | ddIgnored_DEC_SP
  /-- `(DD ignored) INC A` (DD3C), R173. -/
  | ddIgnored_INC_A
  /-- `(DD ignored) DEC A` (DD3D), R173. -/
  | ddIgnored_DEC_A
  /-- `(DD ignored) LD A,n` (DD3E), R173. -/
  | ddIgnored_LD_A_n
  /-- `(DD ignored) CCF` (DD3F), R173. -/
  | ddIgnored_CCF
  /-- `(DD ignored) LD B,B` (DD40), R173. -/
  | ddIgnored_LD_B_B
  /-- `(DD ignored) LD B,C` (DD41), R173. -/
  | ddIgnored_LD_B_C
  /-- `(DD ignored) LD B,D` (DD42), R173. -/
  | ddIgnored_LD_B_D
  /-- `(DD ignored) LD B,E` (DD43), R173. -/
  | ddIgnored_LD_B_E
  /-- `LD B,IXH` (DD44), R319. -/
  | ld_B_IXH
  /-- `LD B,IXL` (DD45), R319. -/
  | ld_B_IXL
  /-- `LD B,(IX+d)` (DD4600), R316. -/
  | ld_B_atIXd (d : Byte)
  /-- `(DD ignored) LD B,A` (DD47), R173. -/
  | ddIgnored_LD_B_A
  /-- `(DD ignored) LD C,B` (DD48), R173. -/
  | ddIgnored_LD_C_B
  /-- `(DD ignored) LD C,C` (DD49), R173. -/
  | ddIgnored_LD_C_C
  /-- `(DD ignored) LD C,D` (DD4A), R173. -/
  | ddIgnored_LD_C_D
  /-- `(DD ignored) LD C,E` (DD4B), R173. -/
  | ddIgnored_LD_C_E
  /-- `LD C,IXH` (DD4C), R319. -/
  | ld_C_IXH
  /-- `LD C,IXL` (DD4D), R319. -/
  | ld_C_IXL
  /-- `LD C,(IX+d)` (DD4E00), R316. -/
  | ld_C_atIXd (d : Byte)
  /-- `(DD ignored) LD C,A` (DD4F), R173. -/
  | ddIgnored_LD_C_A
  /-- `(DD ignored) LD D,B` (DD50), R173. -/
  | ddIgnored_LD_D_B
  /-- `(DD ignored) LD D,C` (DD51), R173. -/
  | ddIgnored_LD_D_C
  /-- `(DD ignored) LD D,D` (DD52), R173. -/
  | ddIgnored_LD_D_D
  /-- `(DD ignored) LD D,E` (DD53), R173. -/
  | ddIgnored_LD_D_E
  /-- `LD D,IXH` (DD54), R319. -/
  | ld_D_IXH
  /-- `LD D,IXL` (DD55), R319. -/
  | ld_D_IXL
  /-- `LD D,(IX+d)` (DD5600), R316. -/
  | ld_D_atIXd (d : Byte)
  /-- `(DD ignored) LD D,A` (DD57), R173. -/
  | ddIgnored_LD_D_A
  /-- `(DD ignored) LD E,B` (DD58), R173. -/
  | ddIgnored_LD_E_B
  /-- `(DD ignored) LD E,C` (DD59), R173. -/
  | ddIgnored_LD_E_C
  /-- `(DD ignored) LD E,D` (DD5A), R173. -/
  | ddIgnored_LD_E_D
  /-- `(DD ignored) LD E,E` (DD5B), R173. -/
  | ddIgnored_LD_E_E
  /-- `LD E,IXH` (DD5C), R319. -/
  | ld_E_IXH
  /-- `LD E,IXL` (DD5D), R319. -/
  | ld_E_IXL
  /-- `LD E,(IX+d)` (DD5E00), R316. -/
  | ld_E_atIXd (d : Byte)
  /-- `(DD ignored) LD E,A` (DD5F), R173. -/
  | ddIgnored_LD_E_A
  /-- `LD IXH,B` (DD60), R319. -/
  | ld_IXH_B
  /-- `LD IXH,C` (DD61), R319. -/
  | ld_IXH_C
  /-- `LD IXH,D` (DD62), R319. -/
  | ld_IXH_D
  /-- `LD IXH,E` (DD63), R319. -/
  | ld_IXH_E
  /-- `LD IXH,IXH` (DD64), R319. -/
  | ld_IXH_IXH
  /-- `LD IXH,IXL` (DD65), R319. -/
  | ld_IXH_IXL
  /-- `LD H,(IX+d)` (DD6600), R316. -/
  | ld_H_atIXd (d : Byte)
  /-- `LD IXH,A` (DD67), R319. -/
  | ld_IXH_A
  /-- `LD IXL,B` (DD68), R319. -/
  | ld_IXL_B
  /-- `LD IXL,C` (DD69), R319. -/
  | ld_IXL_C
  /-- `LD IXL,D` (DD6A), R319. -/
  | ld_IXL_D
  /-- `LD IXL,E` (DD6B), R319. -/
  | ld_IXL_E
  /-- `LD IXL,IXH` (DD6C), R319. -/
  | ld_IXL_IXH
  /-- `LD IXL,IXL` (DD6D), R319. -/
  | ld_IXL_IXL
  /-- `LD L,(IX+d)` (DD6E00), R316. -/
  | ld_L_atIXd (d : Byte)
  /-- `LD IXL,A` (DD6F), R319. -/
  | ld_IXL_A
  /-- `LD (IX+d),B` (DD7000), R317. -/
  | ld_atIXd_B (d : Byte)
  /-- `LD (IX+d),C` (DD7100), R317. -/
  | ld_atIXd_C (d : Byte)
  /-- `LD (IX+d),D` (DD7200), R317. -/
  | ld_atIXd_D (d : Byte)
  /-- `LD (IX+d),E` (DD7300), R317. -/
  | ld_atIXd_E (d : Byte)
  /-- `LD (IX+d),H` (DD7400), R317. -/
  | ld_atIXd_H (d : Byte)
  /-- `LD (IX+d),L` (DD7500), R317. -/
  | ld_atIXd_L (d : Byte)
  /-- `(DD ignored) HALT` (DD76), R173. -/
  | ddIgnored_HALT
  /-- `LD (IX+d),A` (DD7700), R317. -/
  | ld_atIXd_A (d : Byte)
  /-- `(DD ignored) LD A,B` (DD78), R173. -/
  | ddIgnored_LD_A_B
  /-- `(DD ignored) LD A,C` (DD79), R173. -/
  | ddIgnored_LD_A_C
  /-- `(DD ignored) LD A,D` (DD7A), R173. -/
  | ddIgnored_LD_A_D
  /-- `(DD ignored) LD A,E` (DD7B), R173. -/
  | ddIgnored_LD_A_E
  /-- `LD A,IXH` (DD7C), R319. -/
  | ld_A_IXH
  /-- `LD A,IXL` (DD7D), R319. -/
  | ld_A_IXL
  /-- `LD A,(IX+d)` (DD7E00), R316. -/
  | ld_A_atIXd (d : Byte)
  /-- `(DD ignored) LD A,A` (DD7F), R173. -/
  | ddIgnored_LD_A_A
  /-- `(DD ignored) ADD A,B` (DD80), R173. -/
  | ddIgnored_ADD_A_B
  /-- `(DD ignored) ADD A,C` (DD81), R173. -/
  | ddIgnored_ADD_A_C
  /-- `(DD ignored) ADD A,D` (DD82), R173. -/
  | ddIgnored_ADD_A_D
  /-- `(DD ignored) ADD A,E` (DD83), R173. -/
  | ddIgnored_ADD_A_E
  /-- `ADD A,IXH` (DD84), R401. -/
  | add_A_IXH
  /-- `ADD A,IXL` (DD85), R401. -/
  | add_A_IXL
  /-- `ADD A,(IX+d)` (DD8600), R401. -/
  | add_A_atIXd (d : Byte)
  /-- `(DD ignored) ADD A,A` (DD87), R173. -/
  | ddIgnored_ADD_A_A
  /-- `(DD ignored) ADC A,B` (DD88), R173. -/
  | ddIgnored_ADC_A_B
  /-- `(DD ignored) ADC A,C` (DD89), R173. -/
  | ddIgnored_ADC_A_C
  /-- `(DD ignored) ADC A,D` (DD8A), R173. -/
  | ddIgnored_ADC_A_D
  /-- `(DD ignored) ADC A,E` (DD8B), R173. -/
  | ddIgnored_ADC_A_E
  /-- `ADC A,IXH` (DD8C), R402. -/
  | adc_A_IXH
  /-- `ADC A,IXL` (DD8D), R402. -/
  | adc_A_IXL
  /-- `ADC A,(IX+d)` (DD8E00), R402. -/
  | adc_A_atIXd (d : Byte)
  /-- `(DD ignored) ADC A,A` (DD8F), R173. -/
  | ddIgnored_ADC_A_A
  /-- `(DD ignored) SUB B` (DD90), R173. -/
  | ddIgnored_SUB_B
  /-- `(DD ignored) SUB C` (DD91), R173. -/
  | ddIgnored_SUB_C
  /-- `(DD ignored) SUB D` (DD92), R173. -/
  | ddIgnored_SUB_D
  /-- `(DD ignored) SUB E` (DD93), R173. -/
  | ddIgnored_SUB_E
  /-- `SUB IXH` (DD94), R403. -/
  | sub_IXH
  /-- `SUB IXL` (DD95), R403. -/
  | sub_IXL
  /-- `SUB (IX+d)` (DD9600), R403. -/
  | sub_atIXd (d : Byte)
  /-- `(DD ignored) SUB A` (DD97), R173. -/
  | ddIgnored_SUB_A
  /-- `(DD ignored) SBC A,B` (DD98), R173. -/
  | ddIgnored_SBC_A_B
  /-- `(DD ignored) SBC A,C` (DD99), R173. -/
  | ddIgnored_SBC_A_C
  /-- `(DD ignored) SBC A,D` (DD9A), R173. -/
  | ddIgnored_SBC_A_D
  /-- `(DD ignored) SBC A,E` (DD9B), R173. -/
  | ddIgnored_SBC_A_E
  /-- `SBC A,IXH` (DD9C), R404. -/
  | sbc_A_IXH
  /-- `SBC A,IXL` (DD9D), R404. -/
  | sbc_A_IXL
  /-- `SBC A,(IX+d)` (DD9E00), R404. -/
  | sbc_A_atIXd (d : Byte)
  /-- `(DD ignored) SBC A,A` (DD9F), R173. -/
  | ddIgnored_SBC_A_A
  /-- `(DD ignored) AND B` (DDA0), R173. -/
  | ddIgnored_AND_B
  /-- `(DD ignored) AND C` (DDA1), R173. -/
  | ddIgnored_AND_C
  /-- `(DD ignored) AND D` (DDA2), R173. -/
  | ddIgnored_AND_D
  /-- `(DD ignored) AND E` (DDA3), R173. -/
  | ddIgnored_AND_E
  /-- `AND IXH` (DDA4), R405. -/
  | and_IXH
  /-- `AND IXL` (DDA5), R405. -/
  | and_IXL
  /-- `AND (IX+d)` (DDA600), R405. -/
  | and_atIXd (d : Byte)
  /-- `(DD ignored) AND A` (DDA7), R173. -/
  | ddIgnored_AND_A
  /-- `(DD ignored) XOR B` (DDA8), R173. -/
  | ddIgnored_XOR_B
  /-- `(DD ignored) XOR C` (DDA9), R173. -/
  | ddIgnored_XOR_C
  /-- `(DD ignored) XOR D` (DDAA), R173. -/
  | ddIgnored_XOR_D
  /-- `(DD ignored) XOR E` (DDAB), R173. -/
  | ddIgnored_XOR_E
  /-- `XOR IXH` (DDAC), R406. -/
  | xor_IXH
  /-- `XOR IXL` (DDAD), R406. -/
  | xor_IXL
  /-- `XOR (IX+d)` (DDAE00), R406. -/
  | xor_atIXd (d : Byte)
  /-- `(DD ignored) XOR A` (DDAF), R173. -/
  | ddIgnored_XOR_A
  /-- `(DD ignored) OR B` (DDB0), R173. -/
  | ddIgnored_OR_B
  /-- `(DD ignored) OR C` (DDB1), R173. -/
  | ddIgnored_OR_C
  /-- `(DD ignored) OR D` (DDB2), R173. -/
  | ddIgnored_OR_D
  /-- `(DD ignored) OR E` (DDB3), R173. -/
  | ddIgnored_OR_E
  /-- `OR IXH` (DDB4), R407. -/
  | or_IXH
  /-- `OR IXL` (DDB5), R407. -/
  | or_IXL
  /-- `OR (IX+d)` (DDB600), R407. -/
  | or_atIXd (d : Byte)
  /-- `(DD ignored) OR A` (DDB7), R173. -/
  | ddIgnored_OR_A
  /-- `(DD ignored) CP B` (DDB8), R173. -/
  | ddIgnored_CP_B
  /-- `(DD ignored) CP C` (DDB9), R173. -/
  | ddIgnored_CP_C
  /-- `(DD ignored) CP D` (DDBA), R173. -/
  | ddIgnored_CP_D
  /-- `(DD ignored) CP E` (DDBB), R173. -/
  | ddIgnored_CP_E
  /-- `CP IXH` (DDBC), R408. -/
  | cp_IXH
  /-- `CP IXL` (DDBD), R408. -/
  | cp_IXL
  /-- `CP (IX+d)` (DDBE00), R408. -/
  | cp_atIXd (d : Byte)
  /-- `(DD ignored) CP A` (DDBF), R173. -/
  | ddIgnored_CP_A
  /-- `(DD ignored) RET NZ` (DDC0), R173. -/
  | ddIgnored_RET_NZ
  /-- `(DD ignored) POP BC` (DDC1), R173. -/
  | ddIgnored_POP_BC
  /-- `(DD ignored) JP NZ,nn` (DDC2), R173. -/
  | ddIgnored_JP_NZ_nn
  /-- `(DD ignored) JP nn` (DDC3), R173. -/
  | ddIgnored_JP_nn
  /-- `(DD ignored) CALL NZ,nn` (DDC4), R173. -/
  | ddIgnored_CALL_NZ_nn
  /-- `(DD ignored) PUSH BC` (DDC5), R173. -/
  | ddIgnored_PUSH_BC
  /-- `(DD ignored) ADD A,n` (DDC6), R173. -/
  | ddIgnored_ADD_A_n
  /-- `(DD ignored) RST 00H` (DDC7), R173. -/
  | ddIgnored_RST_00H
  /-- `(DD ignored) RET Z` (DDC8), R173. -/
  | ddIgnored_RET_Z
  /-- `(DD ignored) RET` (DDC9), R173. -/
  | ddIgnored_RET
  /-- `(DD ignored) JP Z,nn` (DDCA), R173. -/
  | ddIgnored_JP_Z_nn
  /-- `(DD ignored) CALL Z,nn` (DDCC), R173. -/
  | ddIgnored_CALL_Z_nn
  /-- `(DD ignored) CALL nn` (DDCD), R173. -/
  | ddIgnored_CALL_nn
  /-- `(DD ignored) ADC A,n` (DDCE), R173. -/
  | ddIgnored_ADC_A_n
  /-- `(DD ignored) RST 08H` (DDCF), R173. -/
  | ddIgnored_RST_08H
  /-- `(DD ignored) RET NC` (DDD0), R173. -/
  | ddIgnored_RET_NC
  /-- `(DD ignored) POP DE` (DDD1), R173. -/
  | ddIgnored_POP_DE
  /-- `(DD ignored) JP NC,nn` (DDD2), R173. -/
  | ddIgnored_JP_NC_nn
  /-- `(DD ignored) OUT (n),A` (DDD3), R173. -/
  | ddIgnored_OUT_atn_A
  /-- `(DD ignored) CALL NC,nn` (DDD4), R173. -/
  | ddIgnored_CALL_NC_nn
  /-- `(DD ignored) PUSH DE` (DDD5), R173. -/
  | ddIgnored_PUSH_DE
  /-- `(DD ignored) SUB n` (DDD6), R173. -/
  | ddIgnored_SUB_n
  /-- `(DD ignored) RST 10H` (DDD7), R173. -/
  | ddIgnored_RST_10H
  /-- `(DD ignored) RET C` (DDD8), R173. -/
  | ddIgnored_RET_C
  /-- `(DD ignored) EXX` (DDD9), R173. -/
  | ddIgnored_EXX
  /-- `(DD ignored) JP C,nn` (DDDA), R173. -/
  | ddIgnored_JP_C_nn
  /-- `(DD ignored) IN A,(n)` (DDDB), R173. -/
  | ddIgnored_IN_A_atn
  /-- `(DD ignored) CALL C,nn` (DDDC), R173. -/
  | ddIgnored_CALL_C_nn
  /-- `(DD ignored) prefix DD` (DDDD), R173. -/
  | ddIgnored_prefix_DD
  /-- `(DD ignored) SBC A,n` (DDDE), R173. -/
  | ddIgnored_SBC_A_n
  /-- `(DD ignored) RST 18H` (DDDF), R173. -/
  | ddIgnored_RST_18H
  /-- `(DD ignored) RET PO` (DDE0), R173. -/
  | ddIgnored_RET_PO
  /-- `POP IX` (DDE1), R335. -/
  | pop_IX
  /-- `(DD ignored) JP PO,nn` (DDE2), R173. -/
  | ddIgnored_JP_PO_nn
  /-- `EX (SP),IX` (DDE3), R364. -/
  | ex_atSP_IX
  /-- `(DD ignored) CALL PO,nn` (DDE4), R173. -/
  | ddIgnored_CALL_PO_nn
  /-- `PUSH IX` (DDE5), R333. -/
  | push_IX
  /-- `(DD ignored) AND n` (DDE6), R173. -/
  | ddIgnored_AND_n
  /-- `(DD ignored) RST 20H` (DDE7), R173. -/
  | ddIgnored_RST_20H
  /-- `(DD ignored) RET PE` (DDE8), R173. -/
  | ddIgnored_RET_PE
  /-- `JP (IX)` (DDE9), R546. -/
  | jp_atIX
  /-- `(DD ignored) JP PE,nn` (DDEA), R173. -/
  | ddIgnored_JP_PE_nn
  /-- `(DD ignored) EX DE,HL` (DDEB), R173. -/
  | ddIgnored_EX_DE_HL
  /-- `(DD ignored) CALL PE,nn` (DDEC), R173. -/
  | ddIgnored_CALL_PE_nn
  /-- `(DD ignored) ED page` (DDED), R173. -/
  | ddIgnored_ED_page
  /-- `(DD ignored) XOR n` (DDEE), R173. -/
  | ddIgnored_XOR_n
  /-- `(DD ignored) RST 28H` (DDEF), R173. -/
  | ddIgnored_RST_28H
  /-- `(DD ignored) RET P` (DDF0), R173. -/
  | ddIgnored_RET_P
  /-- `(DD ignored) POP AF` (DDF1), R173. -/
  | ddIgnored_POP_AF
  /-- `(DD ignored) JP P,nn` (DDF2), R173. -/
  | ddIgnored_JP_P_nn
  /-- `(DD ignored) DI` (DDF3), R173. -/
  | ddIgnored_DI
  /-- `(DD ignored) CALL P,nn` (DDF4), R173. -/
  | ddIgnored_CALL_P_nn
  /-- `(DD ignored) PUSH AF` (DDF5), R173. -/
  | ddIgnored_PUSH_AF
  /-- `(DD ignored) OR n` (DDF6), R173. -/
  | ddIgnored_OR_n
  /-- `(DD ignored) RST 30H` (DDF7), R173. -/
  | ddIgnored_RST_30H
  /-- `(DD ignored) RET M` (DDF8), R173. -/
  | ddIgnored_RET_M
  /-- `LD SP,IX` (DDF9), R331. -/
  | ld_SP_IX
  /-- `(DD ignored) JP M,nn` (DDFA), R173. -/
  | ddIgnored_JP_M_nn
  /-- `(DD ignored) EI` (DDFB), R173. -/
  | ddIgnored_EI
  /-- `(DD ignored) CALL M,nn` (DDFC), R173. -/
  | ddIgnored_CALL_M_nn
  /-- `(DD ignored) prefix FD` (DDFD), R173. -/
  | ddIgnored_prefix_FD
  /-- `(DD ignored) CP n` (DDFE), R173. -/
  | ddIgnored_CP_n
  /-- `(DD ignored) RST 38H` (DDFF), R173. -/
  | ddIgnored_RST_38H
  /-- `(FD ignored) NOP` (FD00), R173. -/
  | fdIgnored_NOP
  /-- `(FD ignored) LD BC,nn` (FD01), R173. -/
  | fdIgnored_LD_BC_nn
  /-- `(FD ignored) LD (BC),A` (FD02), R173. -/
  | fdIgnored_LD_atBC_A
  /-- `(FD ignored) INC BC` (FD03), R173. -/
  | fdIgnored_INC_BC
  /-- `(FD ignored) INC B` (FD04), R173. -/
  | fdIgnored_INC_B
  /-- `(FD ignored) DEC B` (FD05), R173. -/
  | fdIgnored_DEC_B
  /-- `(FD ignored) LD B,n` (FD06), R173. -/
  | fdIgnored_LD_B_n
  /-- `(FD ignored) RLCA` (FD07), R173. -/
  | fdIgnored_RLCA
  /-- `(FD ignored) EX AF,AF'` (FD08), R173. -/
  | fdIgnored_EX_AF_AF
  /-- `ADD IY,BC` (FD09), R471. -/
  | add_IY_BC
  /-- `(FD ignored) LD A,(BC)` (FD0A), R173. -/
  | fdIgnored_LD_A_atBC
  /-- `(FD ignored) DEC BC` (FD0B), R173. -/
  | fdIgnored_DEC_BC
  /-- `(FD ignored) INC C` (FD0C), R173. -/
  | fdIgnored_INC_C
  /-- `(FD ignored) DEC C` (FD0D), R173. -/
  | fdIgnored_DEC_C
  /-- `(FD ignored) LD C,n` (FD0E), R173. -/
  | fdIgnored_LD_C_n
  /-- `(FD ignored) RRCA` (FD0F), R173. -/
  | fdIgnored_RRCA
  /-- `(FD ignored) DJNZ e` (FD10), R173. -/
  | fdIgnored_DJNZ_e
  /-- `(FD ignored) LD DE,nn` (FD11), R173. -/
  | fdIgnored_LD_DE_nn
  /-- `(FD ignored) LD (DE),A` (FD12), R173. -/
  | fdIgnored_LD_atDE_A
  /-- `(FD ignored) INC DE` (FD13), R173. -/
  | fdIgnored_INC_DE
  /-- `(FD ignored) INC D` (FD14), R173. -/
  | fdIgnored_INC_D
  /-- `(FD ignored) DEC D` (FD15), R173. -/
  | fdIgnored_DEC_D
  /-- `(FD ignored) LD D,n` (FD16), R173. -/
  | fdIgnored_LD_D_n
  /-- `(FD ignored) RLA` (FD17), R173. -/
  | fdIgnored_RLA
  /-- `(FD ignored) JR e` (FD18), R173. -/
  | fdIgnored_JR_e
  /-- `ADD IY,DE` (FD19), R471. -/
  | add_IY_DE
  /-- `(FD ignored) LD A,(DE)` (FD1A), R173. -/
  | fdIgnored_LD_A_atDE
  /-- `(FD ignored) DEC DE` (FD1B), R173. -/
  | fdIgnored_DEC_DE
  /-- `(FD ignored) INC E` (FD1C), R173. -/
  | fdIgnored_INC_E
  /-- `(FD ignored) DEC E` (FD1D), R173. -/
  | fdIgnored_DEC_E
  /-- `(FD ignored) LD E,n` (FD1E), R173. -/
  | fdIgnored_LD_E_n
  /-- `(FD ignored) RRA` (FD1F), R173. -/
  | fdIgnored_RRA
  /-- `(FD ignored) JR NZ,e` (FD20), R173. -/
  | fdIgnored_JR_NZ_e
  /-- `LD IY,nn` (FD210000), R322. -/
  | ld_IY_nn (nn : Word)
  /-- `LD (nn),IY` (FD220000), R327. -/
  | ld_atnn_IY (nn : Word)
  /-- `INC IY` (FD23), R475. -/
  | inc_IY
  /-- `INC IYH` (FD24), R413. -/
  | inc_IYH
  /-- `DEC IYH` (FD25), R417. -/
  | dec_IYH
  /-- `LD IYH,n` (FD2600), R320. -/
  | ld_IYH_n (n : Byte)
  /-- `(FD ignored) DAA` (FD27), R173. -/
  | fdIgnored_DAA
  /-- `(FD ignored) JR Z,e` (FD28), R173. -/
  | fdIgnored_JR_Z_e
  /-- `ADD IY,IY` (FD29), R471. -/
  | add_IY_IY
  /-- `LD IY,(nn)` (FD2A0000), R324. -/
  | ld_IY_atnn (nn : Word)
  /-- `DEC IY` (FD2B), R477. -/
  | dec_IY
  /-- `INC IYL` (FD2C), R413. -/
  | inc_IYL
  /-- `DEC IYL` (FD2D), R417. -/
  | dec_IYL
  /-- `LD IYL,n` (FD2E00), R320. -/
  | ld_IYL_n (n : Byte)
  /-- `(FD ignored) CPL` (FD2F), R173. -/
  | fdIgnored_CPL
  /-- `(FD ignored) JR NC,e` (FD30), R173. -/
  | fdIgnored_JR_NC_e
  /-- `(FD ignored) LD SP,nn` (FD31), R173. -/
  | fdIgnored_LD_SP_nn
  /-- `(FD ignored) LD (nn),A` (FD32), R173. -/
  | fdIgnored_LD_atnn_A
  /-- `(FD ignored) INC SP` (FD33), R173. -/
  | fdIgnored_INC_SP
  /-- `INC (IY+d)` (FD3400), R412. -/
  | inc_atIYd (d : Byte)
  /-- `DEC (IY+d)` (FD3500), R416. -/
  | dec_atIYd (d : Byte)
  /-- `LD (IY+d),n` (FD360000), R318. -/
  | ld_atIYd_n (d : Byte) (n : Byte)
  /-- `(FD ignored) SCF` (FD37), R173. -/
  | fdIgnored_SCF
  /-- `(FD ignored) JR C,e` (FD38), R173. -/
  | fdIgnored_JR_C_e
  /-- `ADD IY,SP` (FD39), R471. -/
  | add_IY_SP
  /-- `(FD ignored) LD A,(nn)` (FD3A), R173. -/
  | fdIgnored_LD_A_atnn
  /-- `(FD ignored) DEC SP` (FD3B), R173. -/
  | fdIgnored_DEC_SP
  /-- `(FD ignored) INC A` (FD3C), R173. -/
  | fdIgnored_INC_A
  /-- `(FD ignored) DEC A` (FD3D), R173. -/
  | fdIgnored_DEC_A
  /-- `(FD ignored) LD A,n` (FD3E), R173. -/
  | fdIgnored_LD_A_n
  /-- `(FD ignored) CCF` (FD3F), R173. -/
  | fdIgnored_CCF
  /-- `(FD ignored) LD B,B` (FD40), R173. -/
  | fdIgnored_LD_B_B
  /-- `(FD ignored) LD B,C` (FD41), R173. -/
  | fdIgnored_LD_B_C
  /-- `(FD ignored) LD B,D` (FD42), R173. -/
  | fdIgnored_LD_B_D
  /-- `(FD ignored) LD B,E` (FD43), R173. -/
  | fdIgnored_LD_B_E
  /-- `LD B,IYH` (FD44), R319. -/
  | ld_B_IYH
  /-- `LD B,IYL` (FD45), R319. -/
  | ld_B_IYL
  /-- `LD B,(IY+d)` (FD4600), R316. -/
  | ld_B_atIYd (d : Byte)
  /-- `(FD ignored) LD B,A` (FD47), R173. -/
  | fdIgnored_LD_B_A
  /-- `(FD ignored) LD C,B` (FD48), R173. -/
  | fdIgnored_LD_C_B
  /-- `(FD ignored) LD C,C` (FD49), R173. -/
  | fdIgnored_LD_C_C
  /-- `(FD ignored) LD C,D` (FD4A), R173. -/
  | fdIgnored_LD_C_D
  /-- `(FD ignored) LD C,E` (FD4B), R173. -/
  | fdIgnored_LD_C_E
  /-- `LD C,IYH` (FD4C), R319. -/
  | ld_C_IYH
  /-- `LD C,IYL` (FD4D), R319. -/
  | ld_C_IYL
  /-- `LD C,(IY+d)` (FD4E00), R316. -/
  | ld_C_atIYd (d : Byte)
  /-- `(FD ignored) LD C,A` (FD4F), R173. -/
  | fdIgnored_LD_C_A
  /-- `(FD ignored) LD D,B` (FD50), R173. -/
  | fdIgnored_LD_D_B
  /-- `(FD ignored) LD D,C` (FD51), R173. -/
  | fdIgnored_LD_D_C
  /-- `(FD ignored) LD D,D` (FD52), R173. -/
  | fdIgnored_LD_D_D
  /-- `(FD ignored) LD D,E` (FD53), R173. -/
  | fdIgnored_LD_D_E
  /-- `LD D,IYH` (FD54), R319. -/
  | ld_D_IYH
  /-- `LD D,IYL` (FD55), R319. -/
  | ld_D_IYL
  /-- `LD D,(IY+d)` (FD5600), R316. -/
  | ld_D_atIYd (d : Byte)
  /-- `(FD ignored) LD D,A` (FD57), R173. -/
  | fdIgnored_LD_D_A
  /-- `(FD ignored) LD E,B` (FD58), R173. -/
  | fdIgnored_LD_E_B
  /-- `(FD ignored) LD E,C` (FD59), R173. -/
  | fdIgnored_LD_E_C
  /-- `(FD ignored) LD E,D` (FD5A), R173. -/
  | fdIgnored_LD_E_D
  /-- `(FD ignored) LD E,E` (FD5B), R173. -/
  | fdIgnored_LD_E_E
  /-- `LD E,IYH` (FD5C), R319. -/
  | ld_E_IYH
  /-- `LD E,IYL` (FD5D), R319. -/
  | ld_E_IYL
  /-- `LD E,(IY+d)` (FD5E00), R316. -/
  | ld_E_atIYd (d : Byte)
  /-- `(FD ignored) LD E,A` (FD5F), R173. -/
  | fdIgnored_LD_E_A
  /-- `LD IYH,B` (FD60), R319. -/
  | ld_IYH_B
  /-- `LD IYH,C` (FD61), R319. -/
  | ld_IYH_C
  /-- `LD IYH,D` (FD62), R319. -/
  | ld_IYH_D
  /-- `LD IYH,E` (FD63), R319. -/
  | ld_IYH_E
  /-- `LD IYH,IYH` (FD64), R319. -/
  | ld_IYH_IYH
  /-- `LD IYH,IYL` (FD65), R319. -/
  | ld_IYH_IYL
  /-- `LD H,(IY+d)` (FD6600), R316. -/
  | ld_H_atIYd (d : Byte)
  /-- `LD IYH,A` (FD67), R319. -/
  | ld_IYH_A
  /-- `LD IYL,B` (FD68), R319. -/
  | ld_IYL_B
  /-- `LD IYL,C` (FD69), R319. -/
  | ld_IYL_C
  /-- `LD IYL,D` (FD6A), R319. -/
  | ld_IYL_D
  /-- `LD IYL,E` (FD6B), R319. -/
  | ld_IYL_E
  /-- `LD IYL,IYH` (FD6C), R319. -/
  | ld_IYL_IYH
  /-- `LD IYL,IYL` (FD6D), R319. -/
  | ld_IYL_IYL
  /-- `LD L,(IY+d)` (FD6E00), R316. -/
  | ld_L_atIYd (d : Byte)
  /-- `LD IYL,A` (FD6F), R319. -/
  | ld_IYL_A
  /-- `LD (IY+d),B` (FD7000), R317. -/
  | ld_atIYd_B (d : Byte)
  /-- `LD (IY+d),C` (FD7100), R317. -/
  | ld_atIYd_C (d : Byte)
  /-- `LD (IY+d),D` (FD7200), R317. -/
  | ld_atIYd_D (d : Byte)
  /-- `LD (IY+d),E` (FD7300), R317. -/
  | ld_atIYd_E (d : Byte)
  /-- `LD (IY+d),H` (FD7400), R317. -/
  | ld_atIYd_H (d : Byte)
  /-- `LD (IY+d),L` (FD7500), R317. -/
  | ld_atIYd_L (d : Byte)
  /-- `(FD ignored) HALT` (FD76), R173. -/
  | fdIgnored_HALT
  /-- `LD (IY+d),A` (FD7700), R317. -/
  | ld_atIYd_A (d : Byte)
  /-- `(FD ignored) LD A,B` (FD78), R173. -/
  | fdIgnored_LD_A_B
  /-- `(FD ignored) LD A,C` (FD79), R173. -/
  | fdIgnored_LD_A_C
  /-- `(FD ignored) LD A,D` (FD7A), R173. -/
  | fdIgnored_LD_A_D
  /-- `(FD ignored) LD A,E` (FD7B), R173. -/
  | fdIgnored_LD_A_E
  /-- `LD A,IYH` (FD7C), R319. -/
  | ld_A_IYH
  /-- `LD A,IYL` (FD7D), R319. -/
  | ld_A_IYL
  /-- `LD A,(IY+d)` (FD7E00), R316. -/
  | ld_A_atIYd (d : Byte)
  /-- `(FD ignored) LD A,A` (FD7F), R173. -/
  | fdIgnored_LD_A_A
  /-- `(FD ignored) ADD A,B` (FD80), R173. -/
  | fdIgnored_ADD_A_B
  /-- `(FD ignored) ADD A,C` (FD81), R173. -/
  | fdIgnored_ADD_A_C
  /-- `(FD ignored) ADD A,D` (FD82), R173. -/
  | fdIgnored_ADD_A_D
  /-- `(FD ignored) ADD A,E` (FD83), R173. -/
  | fdIgnored_ADD_A_E
  /-- `ADD A,IYH` (FD84), R401. -/
  | add_A_IYH
  /-- `ADD A,IYL` (FD85), R401. -/
  | add_A_IYL
  /-- `ADD A,(IY+d)` (FD8600), R401. -/
  | add_A_atIYd (d : Byte)
  /-- `(FD ignored) ADD A,A` (FD87), R173. -/
  | fdIgnored_ADD_A_A
  /-- `(FD ignored) ADC A,B` (FD88), R173. -/
  | fdIgnored_ADC_A_B
  /-- `(FD ignored) ADC A,C` (FD89), R173. -/
  | fdIgnored_ADC_A_C
  /-- `(FD ignored) ADC A,D` (FD8A), R173. -/
  | fdIgnored_ADC_A_D
  /-- `(FD ignored) ADC A,E` (FD8B), R173. -/
  | fdIgnored_ADC_A_E
  /-- `ADC A,IYH` (FD8C), R402. -/
  | adc_A_IYH
  /-- `ADC A,IYL` (FD8D), R402. -/
  | adc_A_IYL
  /-- `ADC A,(IY+d)` (FD8E00), R402. -/
  | adc_A_atIYd (d : Byte)
  /-- `(FD ignored) ADC A,A` (FD8F), R173. -/
  | fdIgnored_ADC_A_A
  /-- `(FD ignored) SUB B` (FD90), R173. -/
  | fdIgnored_SUB_B
  /-- `(FD ignored) SUB C` (FD91), R173. -/
  | fdIgnored_SUB_C
  /-- `(FD ignored) SUB D` (FD92), R173. -/
  | fdIgnored_SUB_D
  /-- `(FD ignored) SUB E` (FD93), R173. -/
  | fdIgnored_SUB_E
  /-- `SUB IYH` (FD94), R403. -/
  | sub_IYH
  /-- `SUB IYL` (FD95), R403. -/
  | sub_IYL
  /-- `SUB (IY+d)` (FD9600), R403. -/
  | sub_atIYd (d : Byte)
  /-- `(FD ignored) SUB A` (FD97), R173. -/
  | fdIgnored_SUB_A
  /-- `(FD ignored) SBC A,B` (FD98), R173. -/
  | fdIgnored_SBC_A_B
  /-- `(FD ignored) SBC A,C` (FD99), R173. -/
  | fdIgnored_SBC_A_C
  /-- `(FD ignored) SBC A,D` (FD9A), R173. -/
  | fdIgnored_SBC_A_D
  /-- `(FD ignored) SBC A,E` (FD9B), R173. -/
  | fdIgnored_SBC_A_E
  /-- `SBC A,IYH` (FD9C), R404. -/
  | sbc_A_IYH
  /-- `SBC A,IYL` (FD9D), R404. -/
  | sbc_A_IYL
  /-- `SBC A,(IY+d)` (FD9E00), R404. -/
  | sbc_A_atIYd (d : Byte)
  /-- `(FD ignored) SBC A,A` (FD9F), R173. -/
  | fdIgnored_SBC_A_A
  /-- `(FD ignored) AND B` (FDA0), R173. -/
  | fdIgnored_AND_B
  /-- `(FD ignored) AND C` (FDA1), R173. -/
  | fdIgnored_AND_C
  /-- `(FD ignored) AND D` (FDA2), R173. -/
  | fdIgnored_AND_D
  /-- `(FD ignored) AND E` (FDA3), R173. -/
  | fdIgnored_AND_E
  /-- `AND IYH` (FDA4), R405. -/
  | and_IYH
  /-- `AND IYL` (FDA5), R405. -/
  | and_IYL
  /-- `AND (IY+d)` (FDA600), R405. -/
  | and_atIYd (d : Byte)
  /-- `(FD ignored) AND A` (FDA7), R173. -/
  | fdIgnored_AND_A
  /-- `(FD ignored) XOR B` (FDA8), R173. -/
  | fdIgnored_XOR_B
  /-- `(FD ignored) XOR C` (FDA9), R173. -/
  | fdIgnored_XOR_C
  /-- `(FD ignored) XOR D` (FDAA), R173. -/
  | fdIgnored_XOR_D
  /-- `(FD ignored) XOR E` (FDAB), R173. -/
  | fdIgnored_XOR_E
  /-- `XOR IYH` (FDAC), R406. -/
  | xor_IYH
  /-- `XOR IYL` (FDAD), R406. -/
  | xor_IYL
  /-- `XOR (IY+d)` (FDAE00), R406. -/
  | xor_atIYd (d : Byte)
  /-- `(FD ignored) XOR A` (FDAF), R173. -/
  | fdIgnored_XOR_A
  /-- `(FD ignored) OR B` (FDB0), R173. -/
  | fdIgnored_OR_B
  /-- `(FD ignored) OR C` (FDB1), R173. -/
  | fdIgnored_OR_C
  /-- `(FD ignored) OR D` (FDB2), R173. -/
  | fdIgnored_OR_D
  /-- `(FD ignored) OR E` (FDB3), R173. -/
  | fdIgnored_OR_E
  /-- `OR IYH` (FDB4), R407. -/
  | or_IYH
  /-- `OR IYL` (FDB5), R407. -/
  | or_IYL
  /-- `OR (IY+d)` (FDB600), R407. -/
  | or_atIYd (d : Byte)
  /-- `(FD ignored) OR A` (FDB7), R173. -/
  | fdIgnored_OR_A
  /-- `(FD ignored) CP B` (FDB8), R173. -/
  | fdIgnored_CP_B
  /-- `(FD ignored) CP C` (FDB9), R173. -/
  | fdIgnored_CP_C
  /-- `(FD ignored) CP D` (FDBA), R173. -/
  | fdIgnored_CP_D
  /-- `(FD ignored) CP E` (FDBB), R173. -/
  | fdIgnored_CP_E
  /-- `CP IYH` (FDBC), R408. -/
  | cp_IYH
  /-- `CP IYL` (FDBD), R408. -/
  | cp_IYL
  /-- `CP (IY+d)` (FDBE00), R408. -/
  | cp_atIYd (d : Byte)
  /-- `(FD ignored) CP A` (FDBF), R173. -/
  | fdIgnored_CP_A
  /-- `(FD ignored) RET NZ` (FDC0), R173. -/
  | fdIgnored_RET_NZ
  /-- `(FD ignored) POP BC` (FDC1), R173. -/
  | fdIgnored_POP_BC
  /-- `(FD ignored) JP NZ,nn` (FDC2), R173. -/
  | fdIgnored_JP_NZ_nn
  /-- `(FD ignored) JP nn` (FDC3), R173. -/
  | fdIgnored_JP_nn
  /-- `(FD ignored) CALL NZ,nn` (FDC4), R173. -/
  | fdIgnored_CALL_NZ_nn
  /-- `(FD ignored) PUSH BC` (FDC5), R173. -/
  | fdIgnored_PUSH_BC
  /-- `(FD ignored) ADD A,n` (FDC6), R173. -/
  | fdIgnored_ADD_A_n
  /-- `(FD ignored) RST 00H` (FDC7), R173. -/
  | fdIgnored_RST_00H
  /-- `(FD ignored) RET Z` (FDC8), R173. -/
  | fdIgnored_RET_Z
  /-- `(FD ignored) RET` (FDC9), R173. -/
  | fdIgnored_RET
  /-- `(FD ignored) JP Z,nn` (FDCA), R173. -/
  | fdIgnored_JP_Z_nn
  /-- `(FD ignored) CALL Z,nn` (FDCC), R173. -/
  | fdIgnored_CALL_Z_nn
  /-- `(FD ignored) CALL nn` (FDCD), R173. -/
  | fdIgnored_CALL_nn
  /-- `(FD ignored) ADC A,n` (FDCE), R173. -/
  | fdIgnored_ADC_A_n
  /-- `(FD ignored) RST 08H` (FDCF), R173. -/
  | fdIgnored_RST_08H
  /-- `(FD ignored) RET NC` (FDD0), R173. -/
  | fdIgnored_RET_NC
  /-- `(FD ignored) POP DE` (FDD1), R173. -/
  | fdIgnored_POP_DE
  /-- `(FD ignored) JP NC,nn` (FDD2), R173. -/
  | fdIgnored_JP_NC_nn
  /-- `(FD ignored) OUT (n),A` (FDD3), R173. -/
  | fdIgnored_OUT_atn_A
  /-- `(FD ignored) CALL NC,nn` (FDD4), R173. -/
  | fdIgnored_CALL_NC_nn
  /-- `(FD ignored) PUSH DE` (FDD5), R173. -/
  | fdIgnored_PUSH_DE
  /-- `(FD ignored) SUB n` (FDD6), R173. -/
  | fdIgnored_SUB_n
  /-- `(FD ignored) RST 10H` (FDD7), R173. -/
  | fdIgnored_RST_10H
  /-- `(FD ignored) RET C` (FDD8), R173. -/
  | fdIgnored_RET_C
  /-- `(FD ignored) EXX` (FDD9), R173. -/
  | fdIgnored_EXX
  /-- `(FD ignored) JP C,nn` (FDDA), R173. -/
  | fdIgnored_JP_C_nn
  /-- `(FD ignored) IN A,(n)` (FDDB), R173. -/
  | fdIgnored_IN_A_atn
  /-- `(FD ignored) CALL C,nn` (FDDC), R173. -/
  | fdIgnored_CALL_C_nn
  /-- `(FD ignored) prefix DD` (FDDD), R173. -/
  | fdIgnored_prefix_DD
  /-- `(FD ignored) SBC A,n` (FDDE), R173. -/
  | fdIgnored_SBC_A_n
  /-- `(FD ignored) RST 18H` (FDDF), R173. -/
  | fdIgnored_RST_18H
  /-- `(FD ignored) RET PO` (FDE0), R173. -/
  | fdIgnored_RET_PO
  /-- `POP IY` (FDE1), R335. -/
  | pop_IY
  /-- `(FD ignored) JP PO,nn` (FDE2), R173. -/
  | fdIgnored_JP_PO_nn
  /-- `EX (SP),IY` (FDE3), R364. -/
  | ex_atSP_IY
  /-- `(FD ignored) CALL PO,nn` (FDE4), R173. -/
  | fdIgnored_CALL_PO_nn
  /-- `PUSH IY` (FDE5), R333. -/
  | push_IY
  /-- `(FD ignored) AND n` (FDE6), R173. -/
  | fdIgnored_AND_n
  /-- `(FD ignored) RST 20H` (FDE7), R173. -/
  | fdIgnored_RST_20H
  /-- `(FD ignored) RET PE` (FDE8), R173. -/
  | fdIgnored_RET_PE
  /-- `JP (IY)` (FDE9), R546. -/
  | jp_atIY
  /-- `(FD ignored) JP PE,nn` (FDEA), R173. -/
  | fdIgnored_JP_PE_nn
  /-- `(FD ignored) EX DE,HL` (FDEB), R173. -/
  | fdIgnored_EX_DE_HL
  /-- `(FD ignored) CALL PE,nn` (FDEC), R173. -/
  | fdIgnored_CALL_PE_nn
  /-- `(FD ignored) ED page` (FDED), R173. -/
  | fdIgnored_ED_page
  /-- `(FD ignored) XOR n` (FDEE), R173. -/
  | fdIgnored_XOR_n
  /-- `(FD ignored) RST 28H` (FDEF), R173. -/
  | fdIgnored_RST_28H
  /-- `(FD ignored) RET P` (FDF0), R173. -/
  | fdIgnored_RET_P
  /-- `(FD ignored) POP AF` (FDF1), R173. -/
  | fdIgnored_POP_AF
  /-- `(FD ignored) JP P,nn` (FDF2), R173. -/
  | fdIgnored_JP_P_nn
  /-- `(FD ignored) DI` (FDF3), R173. -/
  | fdIgnored_DI
  /-- `(FD ignored) CALL P,nn` (FDF4), R173. -/
  | fdIgnored_CALL_P_nn
  /-- `(FD ignored) PUSH AF` (FDF5), R173. -/
  | fdIgnored_PUSH_AF
  /-- `(FD ignored) OR n` (FDF6), R173. -/
  | fdIgnored_OR_n
  /-- `(FD ignored) RST 30H` (FDF7), R173. -/
  | fdIgnored_RST_30H
  /-- `(FD ignored) RET M` (FDF8), R173. -/
  | fdIgnored_RET_M
  /-- `LD SP,IY` (FDF9), R331. -/
  | ld_SP_IY
  /-- `(FD ignored) JP M,nn` (FDFA), R173. -/
  | fdIgnored_JP_M_nn
  /-- `(FD ignored) EI` (FDFB), R173. -/
  | fdIgnored_EI
  /-- `(FD ignored) CALL M,nn` (FDFC), R173. -/
  | fdIgnored_CALL_M_nn
  /-- `(FD ignored) prefix FD` (FDFD), R173. -/
  | fdIgnored_prefix_FD
  /-- `(FD ignored) CP n` (FDFE), R173. -/
  | fdIgnored_CP_n
  /-- `(FD ignored) RST 38H` (FDFF), R173. -/
  | fdIgnored_RST_38H
  /-- `RLC (IX+d),B` (DDCB0000), R495. -/
  | rlc_atIXd_B (d : Byte)
  /-- `RLC (IX+d),C` (DDCB0001), R495. -/
  | rlc_atIXd_C (d : Byte)
  /-- `RLC (IX+d),D` (DDCB0002), R495. -/
  | rlc_atIXd_D (d : Byte)
  /-- `RLC (IX+d),E` (DDCB0003), R495. -/
  | rlc_atIXd_E (d : Byte)
  /-- `RLC (IX+d),H` (DDCB0004), R495. -/
  | rlc_atIXd_H (d : Byte)
  /-- `RLC (IX+d),L` (DDCB0005), R495. -/
  | rlc_atIXd_L (d : Byte)
  /-- `RLC (IX+d)` (DDCB0006), R495. -/
  | rlc_atIXd (d : Byte)
  /-- `RLC (IX+d),A` (DDCB0007), R495. -/
  | rlc_atIXd_A (d : Byte)
  /-- `RRC (IX+d),B` (DDCB0008), R496. -/
  | rrc_atIXd_B (d : Byte)
  /-- `RRC (IX+d),C` (DDCB0009), R496. -/
  | rrc_atIXd_C (d : Byte)
  /-- `RRC (IX+d),D` (DDCB000A), R496. -/
  | rrc_atIXd_D (d : Byte)
  /-- `RRC (IX+d),E` (DDCB000B), R496. -/
  | rrc_atIXd_E (d : Byte)
  /-- `RRC (IX+d),H` (DDCB000C), R496. -/
  | rrc_atIXd_H (d : Byte)
  /-- `RRC (IX+d),L` (DDCB000D), R496. -/
  | rrc_atIXd_L (d : Byte)
  /-- `RRC (IX+d)` (DDCB000E), R496. -/
  | rrc_atIXd (d : Byte)
  /-- `RRC (IX+d),A` (DDCB000F), R496. -/
  | rrc_atIXd_A (d : Byte)
  /-- `RL (IX+d),B` (DDCB0010), R497. -/
  | rl_atIXd_B (d : Byte)
  /-- `RL (IX+d),C` (DDCB0011), R497. -/
  | rl_atIXd_C (d : Byte)
  /-- `RL (IX+d),D` (DDCB0012), R497. -/
  | rl_atIXd_D (d : Byte)
  /-- `RL (IX+d),E` (DDCB0013), R497. -/
  | rl_atIXd_E (d : Byte)
  /-- `RL (IX+d),H` (DDCB0014), R497. -/
  | rl_atIXd_H (d : Byte)
  /-- `RL (IX+d),L` (DDCB0015), R497. -/
  | rl_atIXd_L (d : Byte)
  /-- `RL (IX+d)` (DDCB0016), R497. -/
  | rl_atIXd (d : Byte)
  /-- `RL (IX+d),A` (DDCB0017), R497. -/
  | rl_atIXd_A (d : Byte)
  /-- `RR (IX+d),B` (DDCB0018), R498. -/
  | rr_atIXd_B (d : Byte)
  /-- `RR (IX+d),C` (DDCB0019), R498. -/
  | rr_atIXd_C (d : Byte)
  /-- `RR (IX+d),D` (DDCB001A), R498. -/
  | rr_atIXd_D (d : Byte)
  /-- `RR (IX+d),E` (DDCB001B), R498. -/
  | rr_atIXd_E (d : Byte)
  /-- `RR (IX+d),H` (DDCB001C), R498. -/
  | rr_atIXd_H (d : Byte)
  /-- `RR (IX+d),L` (DDCB001D), R498. -/
  | rr_atIXd_L (d : Byte)
  /-- `RR (IX+d)` (DDCB001E), R498. -/
  | rr_atIXd (d : Byte)
  /-- `RR (IX+d),A` (DDCB001F), R498. -/
  | rr_atIXd_A (d : Byte)
  /-- `SLA (IX+d),B` (DDCB0020), R499. -/
  | sla_atIXd_B (d : Byte)
  /-- `SLA (IX+d),C` (DDCB0021), R499. -/
  | sla_atIXd_C (d : Byte)
  /-- `SLA (IX+d),D` (DDCB0022), R499. -/
  | sla_atIXd_D (d : Byte)
  /-- `SLA (IX+d),E` (DDCB0023), R499. -/
  | sla_atIXd_E (d : Byte)
  /-- `SLA (IX+d),H` (DDCB0024), R499. -/
  | sla_atIXd_H (d : Byte)
  /-- `SLA (IX+d),L` (DDCB0025), R499. -/
  | sla_atIXd_L (d : Byte)
  /-- `SLA (IX+d)` (DDCB0026), R499. -/
  | sla_atIXd (d : Byte)
  /-- `SLA (IX+d),A` (DDCB0027), R499. -/
  | sla_atIXd_A (d : Byte)
  /-- `SRA (IX+d),B` (DDCB0028), R500. -/
  | sra_atIXd_B (d : Byte)
  /-- `SRA (IX+d),C` (DDCB0029), R500. -/
  | sra_atIXd_C (d : Byte)
  /-- `SRA (IX+d),D` (DDCB002A), R500. -/
  | sra_atIXd_D (d : Byte)
  /-- `SRA (IX+d),E` (DDCB002B), R500. -/
  | sra_atIXd_E (d : Byte)
  /-- `SRA (IX+d),H` (DDCB002C), R500. -/
  | sra_atIXd_H (d : Byte)
  /-- `SRA (IX+d),L` (DDCB002D), R500. -/
  | sra_atIXd_L (d : Byte)
  /-- `SRA (IX+d)` (DDCB002E), R500. -/
  | sra_atIXd (d : Byte)
  /-- `SRA (IX+d),A` (DDCB002F), R500. -/
  | sra_atIXd_A (d : Byte)
  /-- `SLL (IX+d),B` (DDCB0030), R501. -/
  | sll_atIXd_B (d : Byte)
  /-- `SLL (IX+d),C` (DDCB0031), R501. -/
  | sll_atIXd_C (d : Byte)
  /-- `SLL (IX+d),D` (DDCB0032), R501. -/
  | sll_atIXd_D (d : Byte)
  /-- `SLL (IX+d),E` (DDCB0033), R501. -/
  | sll_atIXd_E (d : Byte)
  /-- `SLL (IX+d),H` (DDCB0034), R501. -/
  | sll_atIXd_H (d : Byte)
  /-- `SLL (IX+d),L` (DDCB0035), R501. -/
  | sll_atIXd_L (d : Byte)
  /-- `SLL (IX+d)` (DDCB0036), R501. -/
  | sll_atIXd (d : Byte)
  /-- `SLL (IX+d),A` (DDCB0037), R501. -/
  | sll_atIXd_A (d : Byte)
  /-- `SRL (IX+d),B` (DDCB0038), R502. -/
  | srl_atIXd_B (d : Byte)
  /-- `SRL (IX+d),C` (DDCB0039), R502. -/
  | srl_atIXd_C (d : Byte)
  /-- `SRL (IX+d),D` (DDCB003A), R502. -/
  | srl_atIXd_D (d : Byte)
  /-- `SRL (IX+d),E` (DDCB003B), R502. -/
  | srl_atIXd_E (d : Byte)
  /-- `SRL (IX+d),H` (DDCB003C), R502. -/
  | srl_atIXd_H (d : Byte)
  /-- `SRL (IX+d),L` (DDCB003D), R502. -/
  | srl_atIXd_L (d : Byte)
  /-- `SRL (IX+d)` (DDCB003E), R502. -/
  | srl_atIXd (d : Byte)
  /-- `SRL (IX+d),A` (DDCB003F), R502. -/
  | srl_atIXd_A (d : Byte)
  /-- `BIT 0,(IX+d)` (DDCB0040 and mirrors), R522. -/
  | bit_0_atIXd (d : Byte) (z : Fin 8)
  /-- `BIT 1,(IX+d)` (DDCB0048 and mirrors), R522. -/
  | bit_1_atIXd (d : Byte) (z : Fin 8)
  /-- `BIT 2,(IX+d)` (DDCB0050 and mirrors), R522. -/
  | bit_2_atIXd (d : Byte) (z : Fin 8)
  /-- `BIT 3,(IX+d)` (DDCB0058 and mirrors), R522. -/
  | bit_3_atIXd (d : Byte) (z : Fin 8)
  /-- `BIT 4,(IX+d)` (DDCB0060 and mirrors), R522. -/
  | bit_4_atIXd (d : Byte) (z : Fin 8)
  /-- `BIT 5,(IX+d)` (DDCB0068 and mirrors), R522. -/
  | bit_5_atIXd (d : Byte) (z : Fin 8)
  /-- `BIT 6,(IX+d)` (DDCB0070 and mirrors), R522. -/
  | bit_6_atIXd (d : Byte) (z : Fin 8)
  /-- `BIT 7,(IX+d)` (DDCB0078 and mirrors), R522. -/
  | bit_7_atIXd (d : Byte) (z : Fin 8)
  /-- `RES 0,(IX+d),B` (DDCB0080), R525. -/
  | res_0_atIXd_B (d : Byte)
  /-- `RES 0,(IX+d),C` (DDCB0081), R525. -/
  | res_0_atIXd_C (d : Byte)
  /-- `RES 0,(IX+d),D` (DDCB0082), R525. -/
  | res_0_atIXd_D (d : Byte)
  /-- `RES 0,(IX+d),E` (DDCB0083), R525. -/
  | res_0_atIXd_E (d : Byte)
  /-- `RES 0,(IX+d),H` (DDCB0084), R525. -/
  | res_0_atIXd_H (d : Byte)
  /-- `RES 0,(IX+d),L` (DDCB0085), R525. -/
  | res_0_atIXd_L (d : Byte)
  /-- `RES 0,(IX+d)` (DDCB0086), R525. -/
  | res_0_atIXd (d : Byte)
  /-- `RES 0,(IX+d),A` (DDCB0087), R525. -/
  | res_0_atIXd_A (d : Byte)
  /-- `RES 1,(IX+d),B` (DDCB0088), R525. -/
  | res_1_atIXd_B (d : Byte)
  /-- `RES 1,(IX+d),C` (DDCB0089), R525. -/
  | res_1_atIXd_C (d : Byte)
  /-- `RES 1,(IX+d),D` (DDCB008A), R525. -/
  | res_1_atIXd_D (d : Byte)
  /-- `RES 1,(IX+d),E` (DDCB008B), R525. -/
  | res_1_atIXd_E (d : Byte)
  /-- `RES 1,(IX+d),H` (DDCB008C), R525. -/
  | res_1_atIXd_H (d : Byte)
  /-- `RES 1,(IX+d),L` (DDCB008D), R525. -/
  | res_1_atIXd_L (d : Byte)
  /-- `RES 1,(IX+d)` (DDCB008E), R525. -/
  | res_1_atIXd (d : Byte)
  /-- `RES 1,(IX+d),A` (DDCB008F), R525. -/
  | res_1_atIXd_A (d : Byte)
  /-- `RES 2,(IX+d),B` (DDCB0090), R525. -/
  | res_2_atIXd_B (d : Byte)
  /-- `RES 2,(IX+d),C` (DDCB0091), R525. -/
  | res_2_atIXd_C (d : Byte)
  /-- `RES 2,(IX+d),D` (DDCB0092), R525. -/
  | res_2_atIXd_D (d : Byte)
  /-- `RES 2,(IX+d),E` (DDCB0093), R525. -/
  | res_2_atIXd_E (d : Byte)
  /-- `RES 2,(IX+d),H` (DDCB0094), R525. -/
  | res_2_atIXd_H (d : Byte)
  /-- `RES 2,(IX+d),L` (DDCB0095), R525. -/
  | res_2_atIXd_L (d : Byte)
  /-- `RES 2,(IX+d)` (DDCB0096), R525. -/
  | res_2_atIXd (d : Byte)
  /-- `RES 2,(IX+d),A` (DDCB0097), R525. -/
  | res_2_atIXd_A (d : Byte)
  /-- `RES 3,(IX+d),B` (DDCB0098), R525. -/
  | res_3_atIXd_B (d : Byte)
  /-- `RES 3,(IX+d),C` (DDCB0099), R525. -/
  | res_3_atIXd_C (d : Byte)
  /-- `RES 3,(IX+d),D` (DDCB009A), R525. -/
  | res_3_atIXd_D (d : Byte)
  /-- `RES 3,(IX+d),E` (DDCB009B), R525. -/
  | res_3_atIXd_E (d : Byte)
  /-- `RES 3,(IX+d),H` (DDCB009C), R525. -/
  | res_3_atIXd_H (d : Byte)
  /-- `RES 3,(IX+d),L` (DDCB009D), R525. -/
  | res_3_atIXd_L (d : Byte)
  /-- `RES 3,(IX+d)` (DDCB009E), R525. -/
  | res_3_atIXd (d : Byte)
  /-- `RES 3,(IX+d),A` (DDCB009F), R525. -/
  | res_3_atIXd_A (d : Byte)
  /-- `RES 4,(IX+d),B` (DDCB00A0), R525. -/
  | res_4_atIXd_B (d : Byte)
  /-- `RES 4,(IX+d),C` (DDCB00A1), R525. -/
  | res_4_atIXd_C (d : Byte)
  /-- `RES 4,(IX+d),D` (DDCB00A2), R525. -/
  | res_4_atIXd_D (d : Byte)
  /-- `RES 4,(IX+d),E` (DDCB00A3), R525. -/
  | res_4_atIXd_E (d : Byte)
  /-- `RES 4,(IX+d),H` (DDCB00A4), R525. -/
  | res_4_atIXd_H (d : Byte)
  /-- `RES 4,(IX+d),L` (DDCB00A5), R525. -/
  | res_4_atIXd_L (d : Byte)
  /-- `RES 4,(IX+d)` (DDCB00A6), R525. -/
  | res_4_atIXd (d : Byte)
  /-- `RES 4,(IX+d),A` (DDCB00A7), R525. -/
  | res_4_atIXd_A (d : Byte)
  /-- `RES 5,(IX+d),B` (DDCB00A8), R525. -/
  | res_5_atIXd_B (d : Byte)
  /-- `RES 5,(IX+d),C` (DDCB00A9), R525. -/
  | res_5_atIXd_C (d : Byte)
  /-- `RES 5,(IX+d),D` (DDCB00AA), R525. -/
  | res_5_atIXd_D (d : Byte)
  /-- `RES 5,(IX+d),E` (DDCB00AB), R525. -/
  | res_5_atIXd_E (d : Byte)
  /-- `RES 5,(IX+d),H` (DDCB00AC), R525. -/
  | res_5_atIXd_H (d : Byte)
  /-- `RES 5,(IX+d),L` (DDCB00AD), R525. -/
  | res_5_atIXd_L (d : Byte)
  /-- `RES 5,(IX+d)` (DDCB00AE), R525. -/
  | res_5_atIXd (d : Byte)
  /-- `RES 5,(IX+d),A` (DDCB00AF), R525. -/
  | res_5_atIXd_A (d : Byte)
  /-- `RES 6,(IX+d),B` (DDCB00B0), R525. -/
  | res_6_atIXd_B (d : Byte)
  /-- `RES 6,(IX+d),C` (DDCB00B1), R525. -/
  | res_6_atIXd_C (d : Byte)
  /-- `RES 6,(IX+d),D` (DDCB00B2), R525. -/
  | res_6_atIXd_D (d : Byte)
  /-- `RES 6,(IX+d),E` (DDCB00B3), R525. -/
  | res_6_atIXd_E (d : Byte)
  /-- `RES 6,(IX+d),H` (DDCB00B4), R525. -/
  | res_6_atIXd_H (d : Byte)
  /-- `RES 6,(IX+d),L` (DDCB00B5), R525. -/
  | res_6_atIXd_L (d : Byte)
  /-- `RES 6,(IX+d)` (DDCB00B6), R525. -/
  | res_6_atIXd (d : Byte)
  /-- `RES 6,(IX+d),A` (DDCB00B7), R525. -/
  | res_6_atIXd_A (d : Byte)
  /-- `RES 7,(IX+d),B` (DDCB00B8), R525. -/
  | res_7_atIXd_B (d : Byte)
  /-- `RES 7,(IX+d),C` (DDCB00B9), R525. -/
  | res_7_atIXd_C (d : Byte)
  /-- `RES 7,(IX+d),D` (DDCB00BA), R525. -/
  | res_7_atIXd_D (d : Byte)
  /-- `RES 7,(IX+d),E` (DDCB00BB), R525. -/
  | res_7_atIXd_E (d : Byte)
  /-- `RES 7,(IX+d),H` (DDCB00BC), R525. -/
  | res_7_atIXd_H (d : Byte)
  /-- `RES 7,(IX+d),L` (DDCB00BD), R525. -/
  | res_7_atIXd_L (d : Byte)
  /-- `RES 7,(IX+d)` (DDCB00BE), R525. -/
  | res_7_atIXd (d : Byte)
  /-- `RES 7,(IX+d),A` (DDCB00BF), R525. -/
  | res_7_atIXd_A (d : Byte)
  /-- `SET 0,(IX+d),B` (DDCB00C0), R528. -/
  | set_0_atIXd_B (d : Byte)
  /-- `SET 0,(IX+d),C` (DDCB00C1), R528. -/
  | set_0_atIXd_C (d : Byte)
  /-- `SET 0,(IX+d),D` (DDCB00C2), R528. -/
  | set_0_atIXd_D (d : Byte)
  /-- `SET 0,(IX+d),E` (DDCB00C3), R528. -/
  | set_0_atIXd_E (d : Byte)
  /-- `SET 0,(IX+d),H` (DDCB00C4), R528. -/
  | set_0_atIXd_H (d : Byte)
  /-- `SET 0,(IX+d),L` (DDCB00C5), R528. -/
  | set_0_atIXd_L (d : Byte)
  /-- `SET 0,(IX+d)` (DDCB00C6), R528. -/
  | set_0_atIXd (d : Byte)
  /-- `SET 0,(IX+d),A` (DDCB00C7), R528. -/
  | set_0_atIXd_A (d : Byte)
  /-- `SET 1,(IX+d),B` (DDCB00C8), R528. -/
  | set_1_atIXd_B (d : Byte)
  /-- `SET 1,(IX+d),C` (DDCB00C9), R528. -/
  | set_1_atIXd_C (d : Byte)
  /-- `SET 1,(IX+d),D` (DDCB00CA), R528. -/
  | set_1_atIXd_D (d : Byte)
  /-- `SET 1,(IX+d),E` (DDCB00CB), R528. -/
  | set_1_atIXd_E (d : Byte)
  /-- `SET 1,(IX+d),H` (DDCB00CC), R528. -/
  | set_1_atIXd_H (d : Byte)
  /-- `SET 1,(IX+d),L` (DDCB00CD), R528. -/
  | set_1_atIXd_L (d : Byte)
  /-- `SET 1,(IX+d)` (DDCB00CE), R528. -/
  | set_1_atIXd (d : Byte)
  /-- `SET 1,(IX+d),A` (DDCB00CF), R528. -/
  | set_1_atIXd_A (d : Byte)
  /-- `SET 2,(IX+d),B` (DDCB00D0), R528. -/
  | set_2_atIXd_B (d : Byte)
  /-- `SET 2,(IX+d),C` (DDCB00D1), R528. -/
  | set_2_atIXd_C (d : Byte)
  /-- `SET 2,(IX+d),D` (DDCB00D2), R528. -/
  | set_2_atIXd_D (d : Byte)
  /-- `SET 2,(IX+d),E` (DDCB00D3), R528. -/
  | set_2_atIXd_E (d : Byte)
  /-- `SET 2,(IX+d),H` (DDCB00D4), R528. -/
  | set_2_atIXd_H (d : Byte)
  /-- `SET 2,(IX+d),L` (DDCB00D5), R528. -/
  | set_2_atIXd_L (d : Byte)
  /-- `SET 2,(IX+d)` (DDCB00D6), R528. -/
  | set_2_atIXd (d : Byte)
  /-- `SET 2,(IX+d),A` (DDCB00D7), R528. -/
  | set_2_atIXd_A (d : Byte)
  /-- `SET 3,(IX+d),B` (DDCB00D8), R528. -/
  | set_3_atIXd_B (d : Byte)
  /-- `SET 3,(IX+d),C` (DDCB00D9), R528. -/
  | set_3_atIXd_C (d : Byte)
  /-- `SET 3,(IX+d),D` (DDCB00DA), R528. -/
  | set_3_atIXd_D (d : Byte)
  /-- `SET 3,(IX+d),E` (DDCB00DB), R528. -/
  | set_3_atIXd_E (d : Byte)
  /-- `SET 3,(IX+d),H` (DDCB00DC), R528. -/
  | set_3_atIXd_H (d : Byte)
  /-- `SET 3,(IX+d),L` (DDCB00DD), R528. -/
  | set_3_atIXd_L (d : Byte)
  /-- `SET 3,(IX+d)` (DDCB00DE), R528. -/
  | set_3_atIXd (d : Byte)
  /-- `SET 3,(IX+d),A` (DDCB00DF), R528. -/
  | set_3_atIXd_A (d : Byte)
  /-- `SET 4,(IX+d),B` (DDCB00E0), R528. -/
  | set_4_atIXd_B (d : Byte)
  /-- `SET 4,(IX+d),C` (DDCB00E1), R528. -/
  | set_4_atIXd_C (d : Byte)
  /-- `SET 4,(IX+d),D` (DDCB00E2), R528. -/
  | set_4_atIXd_D (d : Byte)
  /-- `SET 4,(IX+d),E` (DDCB00E3), R528. -/
  | set_4_atIXd_E (d : Byte)
  /-- `SET 4,(IX+d),H` (DDCB00E4), R528. -/
  | set_4_atIXd_H (d : Byte)
  /-- `SET 4,(IX+d),L` (DDCB00E5), R528. -/
  | set_4_atIXd_L (d : Byte)
  /-- `SET 4,(IX+d)` (DDCB00E6), R528. -/
  | set_4_atIXd (d : Byte)
  /-- `SET 4,(IX+d),A` (DDCB00E7), R528. -/
  | set_4_atIXd_A (d : Byte)
  /-- `SET 5,(IX+d),B` (DDCB00E8), R528. -/
  | set_5_atIXd_B (d : Byte)
  /-- `SET 5,(IX+d),C` (DDCB00E9), R528. -/
  | set_5_atIXd_C (d : Byte)
  /-- `SET 5,(IX+d),D` (DDCB00EA), R528. -/
  | set_5_atIXd_D (d : Byte)
  /-- `SET 5,(IX+d),E` (DDCB00EB), R528. -/
  | set_5_atIXd_E (d : Byte)
  /-- `SET 5,(IX+d),H` (DDCB00EC), R528. -/
  | set_5_atIXd_H (d : Byte)
  /-- `SET 5,(IX+d),L` (DDCB00ED), R528. -/
  | set_5_atIXd_L (d : Byte)
  /-- `SET 5,(IX+d)` (DDCB00EE), R528. -/
  | set_5_atIXd (d : Byte)
  /-- `SET 5,(IX+d),A` (DDCB00EF), R528. -/
  | set_5_atIXd_A (d : Byte)
  /-- `SET 6,(IX+d),B` (DDCB00F0), R528. -/
  | set_6_atIXd_B (d : Byte)
  /-- `SET 6,(IX+d),C` (DDCB00F1), R528. -/
  | set_6_atIXd_C (d : Byte)
  /-- `SET 6,(IX+d),D` (DDCB00F2), R528. -/
  | set_6_atIXd_D (d : Byte)
  /-- `SET 6,(IX+d),E` (DDCB00F3), R528. -/
  | set_6_atIXd_E (d : Byte)
  /-- `SET 6,(IX+d),H` (DDCB00F4), R528. -/
  | set_6_atIXd_H (d : Byte)
  /-- `SET 6,(IX+d),L` (DDCB00F5), R528. -/
  | set_6_atIXd_L (d : Byte)
  /-- `SET 6,(IX+d)` (DDCB00F6), R528. -/
  | set_6_atIXd (d : Byte)
  /-- `SET 6,(IX+d),A` (DDCB00F7), R528. -/
  | set_6_atIXd_A (d : Byte)
  /-- `SET 7,(IX+d),B` (DDCB00F8), R528. -/
  | set_7_atIXd_B (d : Byte)
  /-- `SET 7,(IX+d),C` (DDCB00F9), R528. -/
  | set_7_atIXd_C (d : Byte)
  /-- `SET 7,(IX+d),D` (DDCB00FA), R528. -/
  | set_7_atIXd_D (d : Byte)
  /-- `SET 7,(IX+d),E` (DDCB00FB), R528. -/
  | set_7_atIXd_E (d : Byte)
  /-- `SET 7,(IX+d),H` (DDCB00FC), R528. -/
  | set_7_atIXd_H (d : Byte)
  /-- `SET 7,(IX+d),L` (DDCB00FD), R528. -/
  | set_7_atIXd_L (d : Byte)
  /-- `SET 7,(IX+d)` (DDCB00FE), R528. -/
  | set_7_atIXd (d : Byte)
  /-- `SET 7,(IX+d),A` (DDCB00FF), R528. -/
  | set_7_atIXd_A (d : Byte)
  /-- `RLC (IY+d),B` (FDCB0000), R495. -/
  | rlc_atIYd_B (d : Byte)
  /-- `RLC (IY+d),C` (FDCB0001), R495. -/
  | rlc_atIYd_C (d : Byte)
  /-- `RLC (IY+d),D` (FDCB0002), R495. -/
  | rlc_atIYd_D (d : Byte)
  /-- `RLC (IY+d),E` (FDCB0003), R495. -/
  | rlc_atIYd_E (d : Byte)
  /-- `RLC (IY+d),H` (FDCB0004), R495. -/
  | rlc_atIYd_H (d : Byte)
  /-- `RLC (IY+d),L` (FDCB0005), R495. -/
  | rlc_atIYd_L (d : Byte)
  /-- `RLC (IY+d)` (FDCB0006), R495. -/
  | rlc_atIYd (d : Byte)
  /-- `RLC (IY+d),A` (FDCB0007), R495. -/
  | rlc_atIYd_A (d : Byte)
  /-- `RRC (IY+d),B` (FDCB0008), R496. -/
  | rrc_atIYd_B (d : Byte)
  /-- `RRC (IY+d),C` (FDCB0009), R496. -/
  | rrc_atIYd_C (d : Byte)
  /-- `RRC (IY+d),D` (FDCB000A), R496. -/
  | rrc_atIYd_D (d : Byte)
  /-- `RRC (IY+d),E` (FDCB000B), R496. -/
  | rrc_atIYd_E (d : Byte)
  /-- `RRC (IY+d),H` (FDCB000C), R496. -/
  | rrc_atIYd_H (d : Byte)
  /-- `RRC (IY+d),L` (FDCB000D), R496. -/
  | rrc_atIYd_L (d : Byte)
  /-- `RRC (IY+d)` (FDCB000E), R496. -/
  | rrc_atIYd (d : Byte)
  /-- `RRC (IY+d),A` (FDCB000F), R496. -/
  | rrc_atIYd_A (d : Byte)
  /-- `RL (IY+d),B` (FDCB0010), R497. -/
  | rl_atIYd_B (d : Byte)
  /-- `RL (IY+d),C` (FDCB0011), R497. -/
  | rl_atIYd_C (d : Byte)
  /-- `RL (IY+d),D` (FDCB0012), R497. -/
  | rl_atIYd_D (d : Byte)
  /-- `RL (IY+d),E` (FDCB0013), R497. -/
  | rl_atIYd_E (d : Byte)
  /-- `RL (IY+d),H` (FDCB0014), R497. -/
  | rl_atIYd_H (d : Byte)
  /-- `RL (IY+d),L` (FDCB0015), R497. -/
  | rl_atIYd_L (d : Byte)
  /-- `RL (IY+d)` (FDCB0016), R497. -/
  | rl_atIYd (d : Byte)
  /-- `RL (IY+d),A` (FDCB0017), R497. -/
  | rl_atIYd_A (d : Byte)
  /-- `RR (IY+d),B` (FDCB0018), R498. -/
  | rr_atIYd_B (d : Byte)
  /-- `RR (IY+d),C` (FDCB0019), R498. -/
  | rr_atIYd_C (d : Byte)
  /-- `RR (IY+d),D` (FDCB001A), R498. -/
  | rr_atIYd_D (d : Byte)
  /-- `RR (IY+d),E` (FDCB001B), R498. -/
  | rr_atIYd_E (d : Byte)
  /-- `RR (IY+d),H` (FDCB001C), R498. -/
  | rr_atIYd_H (d : Byte)
  /-- `RR (IY+d),L` (FDCB001D), R498. -/
  | rr_atIYd_L (d : Byte)
  /-- `RR (IY+d)` (FDCB001E), R498. -/
  | rr_atIYd (d : Byte)
  /-- `RR (IY+d),A` (FDCB001F), R498. -/
  | rr_atIYd_A (d : Byte)
  /-- `SLA (IY+d),B` (FDCB0020), R499. -/
  | sla_atIYd_B (d : Byte)
  /-- `SLA (IY+d),C` (FDCB0021), R499. -/
  | sla_atIYd_C (d : Byte)
  /-- `SLA (IY+d),D` (FDCB0022), R499. -/
  | sla_atIYd_D (d : Byte)
  /-- `SLA (IY+d),E` (FDCB0023), R499. -/
  | sla_atIYd_E (d : Byte)
  /-- `SLA (IY+d),H` (FDCB0024), R499. -/
  | sla_atIYd_H (d : Byte)
  /-- `SLA (IY+d),L` (FDCB0025), R499. -/
  | sla_atIYd_L (d : Byte)
  /-- `SLA (IY+d)` (FDCB0026), R499. -/
  | sla_atIYd (d : Byte)
  /-- `SLA (IY+d),A` (FDCB0027), R499. -/
  | sla_atIYd_A (d : Byte)
  /-- `SRA (IY+d),B` (FDCB0028), R500. -/
  | sra_atIYd_B (d : Byte)
  /-- `SRA (IY+d),C` (FDCB0029), R500. -/
  | sra_atIYd_C (d : Byte)
  /-- `SRA (IY+d),D` (FDCB002A), R500. -/
  | sra_atIYd_D (d : Byte)
  /-- `SRA (IY+d),E` (FDCB002B), R500. -/
  | sra_atIYd_E (d : Byte)
  /-- `SRA (IY+d),H` (FDCB002C), R500. -/
  | sra_atIYd_H (d : Byte)
  /-- `SRA (IY+d),L` (FDCB002D), R500. -/
  | sra_atIYd_L (d : Byte)
  /-- `SRA (IY+d)` (FDCB002E), R500. -/
  | sra_atIYd (d : Byte)
  /-- `SRA (IY+d),A` (FDCB002F), R500. -/
  | sra_atIYd_A (d : Byte)
  /-- `SLL (IY+d),B` (FDCB0030), R501. -/
  | sll_atIYd_B (d : Byte)
  /-- `SLL (IY+d),C` (FDCB0031), R501. -/
  | sll_atIYd_C (d : Byte)
  /-- `SLL (IY+d),D` (FDCB0032), R501. -/
  | sll_atIYd_D (d : Byte)
  /-- `SLL (IY+d),E` (FDCB0033), R501. -/
  | sll_atIYd_E (d : Byte)
  /-- `SLL (IY+d),H` (FDCB0034), R501. -/
  | sll_atIYd_H (d : Byte)
  /-- `SLL (IY+d),L` (FDCB0035), R501. -/
  | sll_atIYd_L (d : Byte)
  /-- `SLL (IY+d)` (FDCB0036), R501. -/
  | sll_atIYd (d : Byte)
  /-- `SLL (IY+d),A` (FDCB0037), R501. -/
  | sll_atIYd_A (d : Byte)
  /-- `SRL (IY+d),B` (FDCB0038), R502. -/
  | srl_atIYd_B (d : Byte)
  /-- `SRL (IY+d),C` (FDCB0039), R502. -/
  | srl_atIYd_C (d : Byte)
  /-- `SRL (IY+d),D` (FDCB003A), R502. -/
  | srl_atIYd_D (d : Byte)
  /-- `SRL (IY+d),E` (FDCB003B), R502. -/
  | srl_atIYd_E (d : Byte)
  /-- `SRL (IY+d),H` (FDCB003C), R502. -/
  | srl_atIYd_H (d : Byte)
  /-- `SRL (IY+d),L` (FDCB003D), R502. -/
  | srl_atIYd_L (d : Byte)
  /-- `SRL (IY+d)` (FDCB003E), R502. -/
  | srl_atIYd (d : Byte)
  /-- `SRL (IY+d),A` (FDCB003F), R502. -/
  | srl_atIYd_A (d : Byte)
  /-- `BIT 0,(IY+d)` (FDCB0040 and mirrors), R522. -/
  | bit_0_atIYd (d : Byte) (z : Fin 8)
  /-- `BIT 1,(IY+d)` (FDCB0048 and mirrors), R522. -/
  | bit_1_atIYd (d : Byte) (z : Fin 8)
  /-- `BIT 2,(IY+d)` (FDCB0050 and mirrors), R522. -/
  | bit_2_atIYd (d : Byte) (z : Fin 8)
  /-- `BIT 3,(IY+d)` (FDCB0058 and mirrors), R522. -/
  | bit_3_atIYd (d : Byte) (z : Fin 8)
  /-- `BIT 4,(IY+d)` (FDCB0060 and mirrors), R522. -/
  | bit_4_atIYd (d : Byte) (z : Fin 8)
  /-- `BIT 5,(IY+d)` (FDCB0068 and mirrors), R522. -/
  | bit_5_atIYd (d : Byte) (z : Fin 8)
  /-- `BIT 6,(IY+d)` (FDCB0070 and mirrors), R522. -/
  | bit_6_atIYd (d : Byte) (z : Fin 8)
  /-- `BIT 7,(IY+d)` (FDCB0078 and mirrors), R522. -/
  | bit_7_atIYd (d : Byte) (z : Fin 8)
  /-- `RES 0,(IY+d),B` (FDCB0080), R525. -/
  | res_0_atIYd_B (d : Byte)
  /-- `RES 0,(IY+d),C` (FDCB0081), R525. -/
  | res_0_atIYd_C (d : Byte)
  /-- `RES 0,(IY+d),D` (FDCB0082), R525. -/
  | res_0_atIYd_D (d : Byte)
  /-- `RES 0,(IY+d),E` (FDCB0083), R525. -/
  | res_0_atIYd_E (d : Byte)
  /-- `RES 0,(IY+d),H` (FDCB0084), R525. -/
  | res_0_atIYd_H (d : Byte)
  /-- `RES 0,(IY+d),L` (FDCB0085), R525. -/
  | res_0_atIYd_L (d : Byte)
  /-- `RES 0,(IY+d)` (FDCB0086), R525. -/
  | res_0_atIYd (d : Byte)
  /-- `RES 0,(IY+d),A` (FDCB0087), R525. -/
  | res_0_atIYd_A (d : Byte)
  /-- `RES 1,(IY+d),B` (FDCB0088), R525. -/
  | res_1_atIYd_B (d : Byte)
  /-- `RES 1,(IY+d),C` (FDCB0089), R525. -/
  | res_1_atIYd_C (d : Byte)
  /-- `RES 1,(IY+d),D` (FDCB008A), R525. -/
  | res_1_atIYd_D (d : Byte)
  /-- `RES 1,(IY+d),E` (FDCB008B), R525. -/
  | res_1_atIYd_E (d : Byte)
  /-- `RES 1,(IY+d),H` (FDCB008C), R525. -/
  | res_1_atIYd_H (d : Byte)
  /-- `RES 1,(IY+d),L` (FDCB008D), R525. -/
  | res_1_atIYd_L (d : Byte)
  /-- `RES 1,(IY+d)` (FDCB008E), R525. -/
  | res_1_atIYd (d : Byte)
  /-- `RES 1,(IY+d),A` (FDCB008F), R525. -/
  | res_1_atIYd_A (d : Byte)
  /-- `RES 2,(IY+d),B` (FDCB0090), R525. -/
  | res_2_atIYd_B (d : Byte)
  /-- `RES 2,(IY+d),C` (FDCB0091), R525. -/
  | res_2_atIYd_C (d : Byte)
  /-- `RES 2,(IY+d),D` (FDCB0092), R525. -/
  | res_2_atIYd_D (d : Byte)
  /-- `RES 2,(IY+d),E` (FDCB0093), R525. -/
  | res_2_atIYd_E (d : Byte)
  /-- `RES 2,(IY+d),H` (FDCB0094), R525. -/
  | res_2_atIYd_H (d : Byte)
  /-- `RES 2,(IY+d),L` (FDCB0095), R525. -/
  | res_2_atIYd_L (d : Byte)
  /-- `RES 2,(IY+d)` (FDCB0096), R525. -/
  | res_2_atIYd (d : Byte)
  /-- `RES 2,(IY+d),A` (FDCB0097), R525. -/
  | res_2_atIYd_A (d : Byte)
  /-- `RES 3,(IY+d),B` (FDCB0098), R525. -/
  | res_3_atIYd_B (d : Byte)
  /-- `RES 3,(IY+d),C` (FDCB0099), R525. -/
  | res_3_atIYd_C (d : Byte)
  /-- `RES 3,(IY+d),D` (FDCB009A), R525. -/
  | res_3_atIYd_D (d : Byte)
  /-- `RES 3,(IY+d),E` (FDCB009B), R525. -/
  | res_3_atIYd_E (d : Byte)
  /-- `RES 3,(IY+d),H` (FDCB009C), R525. -/
  | res_3_atIYd_H (d : Byte)
  /-- `RES 3,(IY+d),L` (FDCB009D), R525. -/
  | res_3_atIYd_L (d : Byte)
  /-- `RES 3,(IY+d)` (FDCB009E), R525. -/
  | res_3_atIYd (d : Byte)
  /-- `RES 3,(IY+d),A` (FDCB009F), R525. -/
  | res_3_atIYd_A (d : Byte)
  /-- `RES 4,(IY+d),B` (FDCB00A0), R525. -/
  | res_4_atIYd_B (d : Byte)
  /-- `RES 4,(IY+d),C` (FDCB00A1), R525. -/
  | res_4_atIYd_C (d : Byte)
  /-- `RES 4,(IY+d),D` (FDCB00A2), R525. -/
  | res_4_atIYd_D (d : Byte)
  /-- `RES 4,(IY+d),E` (FDCB00A3), R525. -/
  | res_4_atIYd_E (d : Byte)
  /-- `RES 4,(IY+d),H` (FDCB00A4), R525. -/
  | res_4_atIYd_H (d : Byte)
  /-- `RES 4,(IY+d),L` (FDCB00A5), R525. -/
  | res_4_atIYd_L (d : Byte)
  /-- `RES 4,(IY+d)` (FDCB00A6), R525. -/
  | res_4_atIYd (d : Byte)
  /-- `RES 4,(IY+d),A` (FDCB00A7), R525. -/
  | res_4_atIYd_A (d : Byte)
  /-- `RES 5,(IY+d),B` (FDCB00A8), R525. -/
  | res_5_atIYd_B (d : Byte)
  /-- `RES 5,(IY+d),C` (FDCB00A9), R525. -/
  | res_5_atIYd_C (d : Byte)
  /-- `RES 5,(IY+d),D` (FDCB00AA), R525. -/
  | res_5_atIYd_D (d : Byte)
  /-- `RES 5,(IY+d),E` (FDCB00AB), R525. -/
  | res_5_atIYd_E (d : Byte)
  /-- `RES 5,(IY+d),H` (FDCB00AC), R525. -/
  | res_5_atIYd_H (d : Byte)
  /-- `RES 5,(IY+d),L` (FDCB00AD), R525. -/
  | res_5_atIYd_L (d : Byte)
  /-- `RES 5,(IY+d)` (FDCB00AE), R525. -/
  | res_5_atIYd (d : Byte)
  /-- `RES 5,(IY+d),A` (FDCB00AF), R525. -/
  | res_5_atIYd_A (d : Byte)
  /-- `RES 6,(IY+d),B` (FDCB00B0), R525. -/
  | res_6_atIYd_B (d : Byte)
  /-- `RES 6,(IY+d),C` (FDCB00B1), R525. -/
  | res_6_atIYd_C (d : Byte)
  /-- `RES 6,(IY+d),D` (FDCB00B2), R525. -/
  | res_6_atIYd_D (d : Byte)
  /-- `RES 6,(IY+d),E` (FDCB00B3), R525. -/
  | res_6_atIYd_E (d : Byte)
  /-- `RES 6,(IY+d),H` (FDCB00B4), R525. -/
  | res_6_atIYd_H (d : Byte)
  /-- `RES 6,(IY+d),L` (FDCB00B5), R525. -/
  | res_6_atIYd_L (d : Byte)
  /-- `RES 6,(IY+d)` (FDCB00B6), R525. -/
  | res_6_atIYd (d : Byte)
  /-- `RES 6,(IY+d),A` (FDCB00B7), R525. -/
  | res_6_atIYd_A (d : Byte)
  /-- `RES 7,(IY+d),B` (FDCB00B8), R525. -/
  | res_7_atIYd_B (d : Byte)
  /-- `RES 7,(IY+d),C` (FDCB00B9), R525. -/
  | res_7_atIYd_C (d : Byte)
  /-- `RES 7,(IY+d),D` (FDCB00BA), R525. -/
  | res_7_atIYd_D (d : Byte)
  /-- `RES 7,(IY+d),E` (FDCB00BB), R525. -/
  | res_7_atIYd_E (d : Byte)
  /-- `RES 7,(IY+d),H` (FDCB00BC), R525. -/
  | res_7_atIYd_H (d : Byte)
  /-- `RES 7,(IY+d),L` (FDCB00BD), R525. -/
  | res_7_atIYd_L (d : Byte)
  /-- `RES 7,(IY+d)` (FDCB00BE), R525. -/
  | res_7_atIYd (d : Byte)
  /-- `RES 7,(IY+d),A` (FDCB00BF), R525. -/
  | res_7_atIYd_A (d : Byte)
  /-- `SET 0,(IY+d),B` (FDCB00C0), R528. -/
  | set_0_atIYd_B (d : Byte)
  /-- `SET 0,(IY+d),C` (FDCB00C1), R528. -/
  | set_0_atIYd_C (d : Byte)
  /-- `SET 0,(IY+d),D` (FDCB00C2), R528. -/
  | set_0_atIYd_D (d : Byte)
  /-- `SET 0,(IY+d),E` (FDCB00C3), R528. -/
  | set_0_atIYd_E (d : Byte)
  /-- `SET 0,(IY+d),H` (FDCB00C4), R528. -/
  | set_0_atIYd_H (d : Byte)
  /-- `SET 0,(IY+d),L` (FDCB00C5), R528. -/
  | set_0_atIYd_L (d : Byte)
  /-- `SET 0,(IY+d)` (FDCB00C6), R528. -/
  | set_0_atIYd (d : Byte)
  /-- `SET 0,(IY+d),A` (FDCB00C7), R528. -/
  | set_0_atIYd_A (d : Byte)
  /-- `SET 1,(IY+d),B` (FDCB00C8), R528. -/
  | set_1_atIYd_B (d : Byte)
  /-- `SET 1,(IY+d),C` (FDCB00C9), R528. -/
  | set_1_atIYd_C (d : Byte)
  /-- `SET 1,(IY+d),D` (FDCB00CA), R528. -/
  | set_1_atIYd_D (d : Byte)
  /-- `SET 1,(IY+d),E` (FDCB00CB), R528. -/
  | set_1_atIYd_E (d : Byte)
  /-- `SET 1,(IY+d),H` (FDCB00CC), R528. -/
  | set_1_atIYd_H (d : Byte)
  /-- `SET 1,(IY+d),L` (FDCB00CD), R528. -/
  | set_1_atIYd_L (d : Byte)
  /-- `SET 1,(IY+d)` (FDCB00CE), R528. -/
  | set_1_atIYd (d : Byte)
  /-- `SET 1,(IY+d),A` (FDCB00CF), R528. -/
  | set_1_atIYd_A (d : Byte)
  /-- `SET 2,(IY+d),B` (FDCB00D0), R528. -/
  | set_2_atIYd_B (d : Byte)
  /-- `SET 2,(IY+d),C` (FDCB00D1), R528. -/
  | set_2_atIYd_C (d : Byte)
  /-- `SET 2,(IY+d),D` (FDCB00D2), R528. -/
  | set_2_atIYd_D (d : Byte)
  /-- `SET 2,(IY+d),E` (FDCB00D3), R528. -/
  | set_2_atIYd_E (d : Byte)
  /-- `SET 2,(IY+d),H` (FDCB00D4), R528. -/
  | set_2_atIYd_H (d : Byte)
  /-- `SET 2,(IY+d),L` (FDCB00D5), R528. -/
  | set_2_atIYd_L (d : Byte)
  /-- `SET 2,(IY+d)` (FDCB00D6), R528. -/
  | set_2_atIYd (d : Byte)
  /-- `SET 2,(IY+d),A` (FDCB00D7), R528. -/
  | set_2_atIYd_A (d : Byte)
  /-- `SET 3,(IY+d),B` (FDCB00D8), R528. -/
  | set_3_atIYd_B (d : Byte)
  /-- `SET 3,(IY+d),C` (FDCB00D9), R528. -/
  | set_3_atIYd_C (d : Byte)
  /-- `SET 3,(IY+d),D` (FDCB00DA), R528. -/
  | set_3_atIYd_D (d : Byte)
  /-- `SET 3,(IY+d),E` (FDCB00DB), R528. -/
  | set_3_atIYd_E (d : Byte)
  /-- `SET 3,(IY+d),H` (FDCB00DC), R528. -/
  | set_3_atIYd_H (d : Byte)
  /-- `SET 3,(IY+d),L` (FDCB00DD), R528. -/
  | set_3_atIYd_L (d : Byte)
  /-- `SET 3,(IY+d)` (FDCB00DE), R528. -/
  | set_3_atIYd (d : Byte)
  /-- `SET 3,(IY+d),A` (FDCB00DF), R528. -/
  | set_3_atIYd_A (d : Byte)
  /-- `SET 4,(IY+d),B` (FDCB00E0), R528. -/
  | set_4_atIYd_B (d : Byte)
  /-- `SET 4,(IY+d),C` (FDCB00E1), R528. -/
  | set_4_atIYd_C (d : Byte)
  /-- `SET 4,(IY+d),D` (FDCB00E2), R528. -/
  | set_4_atIYd_D (d : Byte)
  /-- `SET 4,(IY+d),E` (FDCB00E3), R528. -/
  | set_4_atIYd_E (d : Byte)
  /-- `SET 4,(IY+d),H` (FDCB00E4), R528. -/
  | set_4_atIYd_H (d : Byte)
  /-- `SET 4,(IY+d),L` (FDCB00E5), R528. -/
  | set_4_atIYd_L (d : Byte)
  /-- `SET 4,(IY+d)` (FDCB00E6), R528. -/
  | set_4_atIYd (d : Byte)
  /-- `SET 4,(IY+d),A` (FDCB00E7), R528. -/
  | set_4_atIYd_A (d : Byte)
  /-- `SET 5,(IY+d),B` (FDCB00E8), R528. -/
  | set_5_atIYd_B (d : Byte)
  /-- `SET 5,(IY+d),C` (FDCB00E9), R528. -/
  | set_5_atIYd_C (d : Byte)
  /-- `SET 5,(IY+d),D` (FDCB00EA), R528. -/
  | set_5_atIYd_D (d : Byte)
  /-- `SET 5,(IY+d),E` (FDCB00EB), R528. -/
  | set_5_atIYd_E (d : Byte)
  /-- `SET 5,(IY+d),H` (FDCB00EC), R528. -/
  | set_5_atIYd_H (d : Byte)
  /-- `SET 5,(IY+d),L` (FDCB00ED), R528. -/
  | set_5_atIYd_L (d : Byte)
  /-- `SET 5,(IY+d)` (FDCB00EE), R528. -/
  | set_5_atIYd (d : Byte)
  /-- `SET 5,(IY+d),A` (FDCB00EF), R528. -/
  | set_5_atIYd_A (d : Byte)
  /-- `SET 6,(IY+d),B` (FDCB00F0), R528. -/
  | set_6_atIYd_B (d : Byte)
  /-- `SET 6,(IY+d),C` (FDCB00F1), R528. -/
  | set_6_atIYd_C (d : Byte)
  /-- `SET 6,(IY+d),D` (FDCB00F2), R528. -/
  | set_6_atIYd_D (d : Byte)
  /-- `SET 6,(IY+d),E` (FDCB00F3), R528. -/
  | set_6_atIYd_E (d : Byte)
  /-- `SET 6,(IY+d),H` (FDCB00F4), R528. -/
  | set_6_atIYd_H (d : Byte)
  /-- `SET 6,(IY+d),L` (FDCB00F5), R528. -/
  | set_6_atIYd_L (d : Byte)
  /-- `SET 6,(IY+d)` (FDCB00F6), R528. -/
  | set_6_atIYd (d : Byte)
  /-- `SET 6,(IY+d),A` (FDCB00F7), R528. -/
  | set_6_atIYd_A (d : Byte)
  /-- `SET 7,(IY+d),B` (FDCB00F8), R528. -/
  | set_7_atIYd_B (d : Byte)
  /-- `SET 7,(IY+d),C` (FDCB00F9), R528. -/
  | set_7_atIYd_C (d : Byte)
  /-- `SET 7,(IY+d),D` (FDCB00FA), R528. -/
  | set_7_atIYd_D (d : Byte)
  /-- `SET 7,(IY+d),E` (FDCB00FB), R528. -/
  | set_7_atIYd_E (d : Byte)
  /-- `SET 7,(IY+d),H` (FDCB00FC), R528. -/
  | set_7_atIYd_H (d : Byte)
  /-- `SET 7,(IY+d),L` (FDCB00FD), R528. -/
  | set_7_atIYd_L (d : Byte)
  /-- `SET 7,(IY+d)` (FDCB00FE), R528. -/
  | set_7_atIYd (d : Byte)
  /-- `SET 7,(IY+d),A` (FDCB00FF), R528. -/
  | set_7_atIYd_A (d : Byte)
  deriving DecidableEq, Repr

/-- The instruction's rule and code fields. -/
def Instr.form : Instr → Form
  | .nop => .nop
  | .ld_BC_nn nn => .ldRpNn .bc nn
  | .ld_atBC_A => .ldAtA .bc
  | .inc_BC => .incRp .bc
  | .inc_B => .incR .b
  | .dec_B => .decR .b
  | .ld_B_n n => .ldRN .b n
  | .rlca => .rlca
  | .ex_AF_AF => .exAF
  | .add_HL_BC => .addHL .bc
  | .ld_A_atBC => .ldAAt .bc
  | .dec_BC => .decRp .bc
  | .inc_C => .incR .c
  | .dec_C => .decR .c
  | .ld_C_n n => .ldRN .c n
  | .rrca => .rrca
  | .djnz_e e => .djnz e
  | .ld_DE_nn nn => .ldRpNn .de nn
  | .ld_atDE_A => .ldAtA .de
  | .inc_DE => .incRp .de
  | .inc_D => .incR .d
  | .dec_D => .decR .d
  | .ld_D_n n => .ldRN .d n
  | .rla => .rla
  | .jr_e e => .jr e
  | .add_HL_DE => .addHL .de
  | .ld_A_atDE => .ldAAt .de
  | .dec_DE => .decRp .de
  | .inc_E => .incR .e
  | .dec_E => .decR .e
  | .ld_E_n n => .ldRN .e n
  | .rra => .rra
  | .jr_NZ_e e => .jrCc .nz e
  | .ld_HL_nn nn => .ldRpNn .hl nn
  | .ld_atnn_HL nn => .ldNnHL nn
  | .inc_HL => .incRp .hl
  | .inc_H => .incR .h
  | .dec_H => .decR .h
  | .ld_H_n n => .ldRN .h n
  | .daa => .daa
  | .jr_Z_e e => .jrCc .z e
  | .add_HL_HL => .addHL .hl
  | .ld_HL_atnn nn => .ldHLAtNn nn
  | .dec_HL => .decRp .hl
  | .inc_L => .incR .l
  | .dec_L => .decR .l
  | .ld_L_n n => .ldRN .l n
  | .cpl => .cpl
  | .jr_NC_e e => .jrCc .nc e
  | .ld_SP_nn nn => .ldRpNn .sp nn
  | .ld_atnn_A nn => .ldNnA nn
  | .inc_SP => .incRp .sp
  | .inc_atHL => .incHL
  | .dec_atHL => .decHL
  | .ld_atHL_n n => .ldHLN n
  | .scf => .scf
  | .jr_C_e e => .jrCc .c e
  | .add_HL_SP => .addHL .sp
  | .ld_A_atnn nn => .ldANn nn
  | .dec_SP => .decRp .sp
  | .inc_A => .incR .a
  | .dec_A => .decR .a
  | .ld_A_n n => .ldRN .a n
  | .ccf => .ccf
  | .ld_B_B => .ldRR .b .b
  | .ld_B_C => .ldRR .b .c
  | .ld_B_D => .ldRR .b .d
  | .ld_B_E => .ldRR .b .e
  | .ld_B_H => .ldRR .b .h
  | .ld_B_L => .ldRR .b .l
  | .ld_B_atHL => .ldRHL .b
  | .ld_B_A => .ldRR .b .a
  | .ld_C_B => .ldRR .c .b
  | .ld_C_C => .ldRR .c .c
  | .ld_C_D => .ldRR .c .d
  | .ld_C_E => .ldRR .c .e
  | .ld_C_H => .ldRR .c .h
  | .ld_C_L => .ldRR .c .l
  | .ld_C_atHL => .ldRHL .c
  | .ld_C_A => .ldRR .c .a
  | .ld_D_B => .ldRR .d .b
  | .ld_D_C => .ldRR .d .c
  | .ld_D_D => .ldRR .d .d
  | .ld_D_E => .ldRR .d .e
  | .ld_D_H => .ldRR .d .h
  | .ld_D_L => .ldRR .d .l
  | .ld_D_atHL => .ldRHL .d
  | .ld_D_A => .ldRR .d .a
  | .ld_E_B => .ldRR .e .b
  | .ld_E_C => .ldRR .e .c
  | .ld_E_D => .ldRR .e .d
  | .ld_E_E => .ldRR .e .e
  | .ld_E_H => .ldRR .e .h
  | .ld_E_L => .ldRR .e .l
  | .ld_E_atHL => .ldRHL .e
  | .ld_E_A => .ldRR .e .a
  | .ld_H_B => .ldRR .h .b
  | .ld_H_C => .ldRR .h .c
  | .ld_H_D => .ldRR .h .d
  | .ld_H_E => .ldRR .h .e
  | .ld_H_H => .ldRR .h .h
  | .ld_H_L => .ldRR .h .l
  | .ld_H_atHL => .ldRHL .h
  | .ld_H_A => .ldRR .h .a
  | .ld_L_B => .ldRR .l .b
  | .ld_L_C => .ldRR .l .c
  | .ld_L_D => .ldRR .l .d
  | .ld_L_E => .ldRR .l .e
  | .ld_L_H => .ldRR .l .h
  | .ld_L_L => .ldRR .l .l
  | .ld_L_atHL => .ldRHL .l
  | .ld_L_A => .ldRR .l .a
  | .ld_atHL_B => .ldHLR .b
  | .ld_atHL_C => .ldHLR .c
  | .ld_atHL_D => .ldHLR .d
  | .ld_atHL_E => .ldHLR .e
  | .ld_atHL_H => .ldHLR .h
  | .ld_atHL_L => .ldHLR .l
  | .halt => .halt
  | .ld_atHL_A => .ldHLR .a
  | .ld_A_B => .ldRR .a .b
  | .ld_A_C => .ldRR .a .c
  | .ld_A_D => .ldRR .a .d
  | .ld_A_E => .ldRR .a .e
  | .ld_A_H => .ldRR .a .h
  | .ld_A_L => .ldRR .a .l
  | .ld_A_atHL => .ldRHL .a
  | .ld_A_A => .ldRR .a .a
  | .add_A_B => .aluR .add .b
  | .add_A_C => .aluR .add .c
  | .add_A_D => .aluR .add .d
  | .add_A_E => .aluR .add .e
  | .add_A_H => .aluR .add .h
  | .add_A_L => .aluR .add .l
  | .add_A_atHL => .aluHL .add
  | .add_A_A => .aluR .add .a
  | .adc_A_B => .aluR .adc .b
  | .adc_A_C => .aluR .adc .c
  | .adc_A_D => .aluR .adc .d
  | .adc_A_E => .aluR .adc .e
  | .adc_A_H => .aluR .adc .h
  | .adc_A_L => .aluR .adc .l
  | .adc_A_atHL => .aluHL .adc
  | .adc_A_A => .aluR .adc .a
  | .sub_B => .aluR .sub .b
  | .sub_C => .aluR .sub .c
  | .sub_D => .aluR .sub .d
  | .sub_E => .aluR .sub .e
  | .sub_H => .aluR .sub .h
  | .sub_L => .aluR .sub .l
  | .sub_atHL => .aluHL .sub
  | .sub_A => .aluR .sub .a
  | .sbc_A_B => .aluR .sbc .b
  | .sbc_A_C => .aluR .sbc .c
  | .sbc_A_D => .aluR .sbc .d
  | .sbc_A_E => .aluR .sbc .e
  | .sbc_A_H => .aluR .sbc .h
  | .sbc_A_L => .aluR .sbc .l
  | .sbc_A_atHL => .aluHL .sbc
  | .sbc_A_A => .aluR .sbc .a
  | .and_B => .aluR .and .b
  | .and_C => .aluR .and .c
  | .and_D => .aluR .and .d
  | .and_E => .aluR .and .e
  | .and_H => .aluR .and .h
  | .and_L => .aluR .and .l
  | .and_atHL => .aluHL .and
  | .and_A => .aluR .and .a
  | .xor_B => .aluR .xor .b
  | .xor_C => .aluR .xor .c
  | .xor_D => .aluR .xor .d
  | .xor_E => .aluR .xor .e
  | .xor_H => .aluR .xor .h
  | .xor_L => .aluR .xor .l
  | .xor_atHL => .aluHL .xor
  | .xor_A => .aluR .xor .a
  | .or_B => .aluR .or .b
  | .or_C => .aluR .or .c
  | .or_D => .aluR .or .d
  | .or_E => .aluR .or .e
  | .or_H => .aluR .or .h
  | .or_L => .aluR .or .l
  | .or_atHL => .aluHL .or
  | .or_A => .aluR .or .a
  | .cp_B => .aluR .cp .b
  | .cp_C => .aluR .cp .c
  | .cp_D => .aluR .cp .d
  | .cp_E => .aluR .cp .e
  | .cp_H => .aluR .cp .h
  | .cp_L => .aluR .cp .l
  | .cp_atHL => .aluHL .cp
  | .cp_A => .aluR .cp .a
  | .ret_NZ => .retCc .nz
  | .pop_BC => .pop .bc
  | .jp_NZ_nn nn => .jpCc .nz nn
  | .jp_nn nn => .jpNn nn
  | .call_NZ_nn nn => .callCc .nz nn
  | .push_BC => .push .bc
  | .add_A_n n => .aluN .add n
  | .rst_00H => .rst 0
  | .ret_Z => .retCc .z
  | .ret => .ret
  | .jp_Z_nn nn => .jpCc .z nn
  | .call_Z_nn nn => .callCc .z nn
  | .call_nn nn => .callNn nn
  | .adc_A_n n => .aluN .adc n
  | .rst_08H => .rst 1
  | .ret_NC => .retCc .nc
  | .pop_DE => .pop .de
  | .jp_NC_nn nn => .jpCc .nc nn
  | .out_atn_A n => .outNA n
  | .call_NC_nn nn => .callCc .nc nn
  | .push_DE => .push .de
  | .sub_n n => .aluN .sub n
  | .rst_10H => .rst 2
  | .ret_C => .retCc .c
  | .exx => .exx
  | .jp_C_nn nn => .jpCc .c nn
  | .in_A_atn n => .inAN n
  | .call_C_nn nn => .callCc .c nn
  | .sbc_A_n n => .aluN .sbc n
  | .rst_18H => .rst 3
  | .ret_PO => .retCc .po
  | .pop_HL => .pop .hl
  | .jp_PO_nn nn => .jpCc .po nn
  | .ex_atSP_HL => .exSpHL
  | .call_PO_nn nn => .callCc .po nn
  | .push_HL => .push .hl
  | .and_n n => .aluN .and n
  | .rst_20H => .rst 4
  | .ret_PE => .retCc .pe
  | .jp_atHL => .jpHL
  | .jp_PE_nn nn => .jpCc .pe nn
  | .ex_DE_HL => .exDEHL
  | .call_PE_nn nn => .callCc .pe nn
  | .xor_n n => .aluN .xor n
  | .rst_28H => .rst 5
  | .ret_P => .retCc .p
  | .pop_AF => .pop .af
  | .jp_P_nn nn => .jpCc .p nn
  | .di => .di
  | .call_P_nn nn => .callCc .p nn
  | .push_AF => .push .af
  | .or_n n => .aluN .or n
  | .rst_30H => .rst 6
  | .ret_M => .retCc .m
  | .ld_SP_HL => .ldSpHL
  | .jp_M_nn nn => .jpCc .m nn
  | .ei => .ei
  | .call_M_nn nn => .callCc .m nn
  | .cp_n n => .aluN .cp n
  | .rst_38H => .rst 7
  | .rlc_B => .rotR .rlc .b
  | .rlc_C => .rotR .rlc .c
  | .rlc_D => .rotR .rlc .d
  | .rlc_E => .rotR .rlc .e
  | .rlc_H => .rotR .rlc .h
  | .rlc_L => .rotR .rlc .l
  | .rlc_atHL => .rotHL .rlc
  | .rlc_A => .rotR .rlc .a
  | .rrc_B => .rotR .rrc .b
  | .rrc_C => .rotR .rrc .c
  | .rrc_D => .rotR .rrc .d
  | .rrc_E => .rotR .rrc .e
  | .rrc_H => .rotR .rrc .h
  | .rrc_L => .rotR .rrc .l
  | .rrc_atHL => .rotHL .rrc
  | .rrc_A => .rotR .rrc .a
  | .rl_B => .rotR .rl .b
  | .rl_C => .rotR .rl .c
  | .rl_D => .rotR .rl .d
  | .rl_E => .rotR .rl .e
  | .rl_H => .rotR .rl .h
  | .rl_L => .rotR .rl .l
  | .rl_atHL => .rotHL .rl
  | .rl_A => .rotR .rl .a
  | .rr_B => .rotR .rr .b
  | .rr_C => .rotR .rr .c
  | .rr_D => .rotR .rr .d
  | .rr_E => .rotR .rr .e
  | .rr_H => .rotR .rr .h
  | .rr_L => .rotR .rr .l
  | .rr_atHL => .rotHL .rr
  | .rr_A => .rotR .rr .a
  | .sla_B => .rotR .sla .b
  | .sla_C => .rotR .sla .c
  | .sla_D => .rotR .sla .d
  | .sla_E => .rotR .sla .e
  | .sla_H => .rotR .sla .h
  | .sla_L => .rotR .sla .l
  | .sla_atHL => .rotHL .sla
  | .sla_A => .rotR .sla .a
  | .sra_B => .rotR .sra .b
  | .sra_C => .rotR .sra .c
  | .sra_D => .rotR .sra .d
  | .sra_E => .rotR .sra .e
  | .sra_H => .rotR .sra .h
  | .sra_L => .rotR .sra .l
  | .sra_atHL => .rotHL .sra
  | .sra_A => .rotR .sra .a
  | .sll_B => .rotR .sll .b
  | .sll_C => .rotR .sll .c
  | .sll_D => .rotR .sll .d
  | .sll_E => .rotR .sll .e
  | .sll_H => .rotR .sll .h
  | .sll_L => .rotR .sll .l
  | .sll_atHL => .rotHL .sll
  | .sll_A => .rotR .sll .a
  | .srl_B => .rotR .srl .b
  | .srl_C => .rotR .srl .c
  | .srl_D => .rotR .srl .d
  | .srl_E => .rotR .srl .e
  | .srl_H => .rotR .srl .h
  | .srl_L => .rotR .srl .l
  | .srl_atHL => .rotHL .srl
  | .srl_A => .rotR .srl .a
  | .bit_0_B => .bitR 0 .b
  | .bit_0_C => .bitR 0 .c
  | .bit_0_D => .bitR 0 .d
  | .bit_0_E => .bitR 0 .e
  | .bit_0_H => .bitR 0 .h
  | .bit_0_L => .bitR 0 .l
  | .bit_0_atHL => .bitHL 0
  | .bit_0_A => .bitR 0 .a
  | .bit_1_B => .bitR 1 .b
  | .bit_1_C => .bitR 1 .c
  | .bit_1_D => .bitR 1 .d
  | .bit_1_E => .bitR 1 .e
  | .bit_1_H => .bitR 1 .h
  | .bit_1_L => .bitR 1 .l
  | .bit_1_atHL => .bitHL 1
  | .bit_1_A => .bitR 1 .a
  | .bit_2_B => .bitR 2 .b
  | .bit_2_C => .bitR 2 .c
  | .bit_2_D => .bitR 2 .d
  | .bit_2_E => .bitR 2 .e
  | .bit_2_H => .bitR 2 .h
  | .bit_2_L => .bitR 2 .l
  | .bit_2_atHL => .bitHL 2
  | .bit_2_A => .bitR 2 .a
  | .bit_3_B => .bitR 3 .b
  | .bit_3_C => .bitR 3 .c
  | .bit_3_D => .bitR 3 .d
  | .bit_3_E => .bitR 3 .e
  | .bit_3_H => .bitR 3 .h
  | .bit_3_L => .bitR 3 .l
  | .bit_3_atHL => .bitHL 3
  | .bit_3_A => .bitR 3 .a
  | .bit_4_B => .bitR 4 .b
  | .bit_4_C => .bitR 4 .c
  | .bit_4_D => .bitR 4 .d
  | .bit_4_E => .bitR 4 .e
  | .bit_4_H => .bitR 4 .h
  | .bit_4_L => .bitR 4 .l
  | .bit_4_atHL => .bitHL 4
  | .bit_4_A => .bitR 4 .a
  | .bit_5_B => .bitR 5 .b
  | .bit_5_C => .bitR 5 .c
  | .bit_5_D => .bitR 5 .d
  | .bit_5_E => .bitR 5 .e
  | .bit_5_H => .bitR 5 .h
  | .bit_5_L => .bitR 5 .l
  | .bit_5_atHL => .bitHL 5
  | .bit_5_A => .bitR 5 .a
  | .bit_6_B => .bitR 6 .b
  | .bit_6_C => .bitR 6 .c
  | .bit_6_D => .bitR 6 .d
  | .bit_6_E => .bitR 6 .e
  | .bit_6_H => .bitR 6 .h
  | .bit_6_L => .bitR 6 .l
  | .bit_6_atHL => .bitHL 6
  | .bit_6_A => .bitR 6 .a
  | .bit_7_B => .bitR 7 .b
  | .bit_7_C => .bitR 7 .c
  | .bit_7_D => .bitR 7 .d
  | .bit_7_E => .bitR 7 .e
  | .bit_7_H => .bitR 7 .h
  | .bit_7_L => .bitR 7 .l
  | .bit_7_atHL => .bitHL 7
  | .bit_7_A => .bitR 7 .a
  | .res_0_B => .resR 0 .b
  | .res_0_C => .resR 0 .c
  | .res_0_D => .resR 0 .d
  | .res_0_E => .resR 0 .e
  | .res_0_H => .resR 0 .h
  | .res_0_L => .resR 0 .l
  | .res_0_atHL => .resHL 0
  | .res_0_A => .resR 0 .a
  | .res_1_B => .resR 1 .b
  | .res_1_C => .resR 1 .c
  | .res_1_D => .resR 1 .d
  | .res_1_E => .resR 1 .e
  | .res_1_H => .resR 1 .h
  | .res_1_L => .resR 1 .l
  | .res_1_atHL => .resHL 1
  | .res_1_A => .resR 1 .a
  | .res_2_B => .resR 2 .b
  | .res_2_C => .resR 2 .c
  | .res_2_D => .resR 2 .d
  | .res_2_E => .resR 2 .e
  | .res_2_H => .resR 2 .h
  | .res_2_L => .resR 2 .l
  | .res_2_atHL => .resHL 2
  | .res_2_A => .resR 2 .a
  | .res_3_B => .resR 3 .b
  | .res_3_C => .resR 3 .c
  | .res_3_D => .resR 3 .d
  | .res_3_E => .resR 3 .e
  | .res_3_H => .resR 3 .h
  | .res_3_L => .resR 3 .l
  | .res_3_atHL => .resHL 3
  | .res_3_A => .resR 3 .a
  | .res_4_B => .resR 4 .b
  | .res_4_C => .resR 4 .c
  | .res_4_D => .resR 4 .d
  | .res_4_E => .resR 4 .e
  | .res_4_H => .resR 4 .h
  | .res_4_L => .resR 4 .l
  | .res_4_atHL => .resHL 4
  | .res_4_A => .resR 4 .a
  | .res_5_B => .resR 5 .b
  | .res_5_C => .resR 5 .c
  | .res_5_D => .resR 5 .d
  | .res_5_E => .resR 5 .e
  | .res_5_H => .resR 5 .h
  | .res_5_L => .resR 5 .l
  | .res_5_atHL => .resHL 5
  | .res_5_A => .resR 5 .a
  | .res_6_B => .resR 6 .b
  | .res_6_C => .resR 6 .c
  | .res_6_D => .resR 6 .d
  | .res_6_E => .resR 6 .e
  | .res_6_H => .resR 6 .h
  | .res_6_L => .resR 6 .l
  | .res_6_atHL => .resHL 6
  | .res_6_A => .resR 6 .a
  | .res_7_B => .resR 7 .b
  | .res_7_C => .resR 7 .c
  | .res_7_D => .resR 7 .d
  | .res_7_E => .resR 7 .e
  | .res_7_H => .resR 7 .h
  | .res_7_L => .resR 7 .l
  | .res_7_atHL => .resHL 7
  | .res_7_A => .resR 7 .a
  | .set_0_B => .setR 0 .b
  | .set_0_C => .setR 0 .c
  | .set_0_D => .setR 0 .d
  | .set_0_E => .setR 0 .e
  | .set_0_H => .setR 0 .h
  | .set_0_L => .setR 0 .l
  | .set_0_atHL => .setHL 0
  | .set_0_A => .setR 0 .a
  | .set_1_B => .setR 1 .b
  | .set_1_C => .setR 1 .c
  | .set_1_D => .setR 1 .d
  | .set_1_E => .setR 1 .e
  | .set_1_H => .setR 1 .h
  | .set_1_L => .setR 1 .l
  | .set_1_atHL => .setHL 1
  | .set_1_A => .setR 1 .a
  | .set_2_B => .setR 2 .b
  | .set_2_C => .setR 2 .c
  | .set_2_D => .setR 2 .d
  | .set_2_E => .setR 2 .e
  | .set_2_H => .setR 2 .h
  | .set_2_L => .setR 2 .l
  | .set_2_atHL => .setHL 2
  | .set_2_A => .setR 2 .a
  | .set_3_B => .setR 3 .b
  | .set_3_C => .setR 3 .c
  | .set_3_D => .setR 3 .d
  | .set_3_E => .setR 3 .e
  | .set_3_H => .setR 3 .h
  | .set_3_L => .setR 3 .l
  | .set_3_atHL => .setHL 3
  | .set_3_A => .setR 3 .a
  | .set_4_B => .setR 4 .b
  | .set_4_C => .setR 4 .c
  | .set_4_D => .setR 4 .d
  | .set_4_E => .setR 4 .e
  | .set_4_H => .setR 4 .h
  | .set_4_L => .setR 4 .l
  | .set_4_atHL => .setHL 4
  | .set_4_A => .setR 4 .a
  | .set_5_B => .setR 5 .b
  | .set_5_C => .setR 5 .c
  | .set_5_D => .setR 5 .d
  | .set_5_E => .setR 5 .e
  | .set_5_H => .setR 5 .h
  | .set_5_L => .setR 5 .l
  | .set_5_atHL => .setHL 5
  | .set_5_A => .setR 5 .a
  | .set_6_B => .setR 6 .b
  | .set_6_C => .setR 6 .c
  | .set_6_D => .setR 6 .d
  | .set_6_E => .setR 6 .e
  | .set_6_H => .setR 6 .h
  | .set_6_L => .setR 6 .l
  | .set_6_atHL => .setHL 6
  | .set_6_A => .setR 6 .a
  | .set_7_B => .setR 7 .b
  | .set_7_C => .setR 7 .c
  | .set_7_D => .setR 7 .d
  | .set_7_E => .setR 7 .e
  | .set_7_H => .setR 7 .h
  | .set_7_L => .setR 7 .l
  | .set_7_atHL => .setHL 7
  | .set_7_A => .setR 7 .a
  | .edNop op => .edNop op
  | .in_B_atC => .inRC .b
  | .out_atC_B => .outCR .b
  | .sbc_HL_BC => .sbcHL .bc
  | .ld_atnn_BC nn => .ldNnRp .bc nn
  | .neg y => .neg y
  | .retn y => .retn y
  | .im_0 m => .im (bif m then 4 else 0)
  | .ld_I_A => .ldIA
  | .in_C_atC => .inRC .c
  | .out_atC_C => .outCR .c
  | .adc_HL_BC => .adcHL .bc
  | .ld_BC_atnn nn => .ldRpAtNn .bc nn
  | .reti => .reti
  | .im_0_1 m => .im (bif m then 5 else 1)
  | .ld_R_A => .ldRA
  | .in_D_atC => .inRC .d
  | .out_atC_D => .outCR .d
  | .sbc_HL_DE => .sbcHL .de
  | .ld_atnn_DE nn => .ldNnRp .de nn
  | .im_1 m => .im (bif m then 6 else 2)
  | .ld_A_I => .ldAI
  | .in_E_atC => .inRC .e
  | .out_atC_E => .outCR .e
  | .adc_HL_DE => .adcHL .de
  | .ld_DE_atnn nn => .ldRpAtNn .de nn
  | .im_2 m => .im (bif m then 7 else 3)
  | .ld_A_R => .ldAR
  | .in_H_atC => .inRC .h
  | .out_atC_H => .outCR .h
  | .sbc_HL_HL => .sbcHL .hl
  | .ld_atnn_HL_ed nn => .ldNnRp .hl nn
  | .rrd => .rrd
  | .in_L_atC => .inRC .l
  | .out_atC_L => .outCR .l
  | .adc_HL_HL => .adcHL .hl
  | .ld_HL_atnn_ed nn => .ldRpAtNn .hl nn
  | .rld => .rld
  | .in_F_atC => .inFC
  | .out_atC_0 => .outC0
  | .sbc_HL_SP => .sbcHL .sp
  | .ld_atnn_SP nn => .ldNnRp .sp nn
  | .in_A_atC => .inRC .a
  | .out_atC_A => .outCR .a
  | .adc_HL_SP => .adcHL .sp
  | .ld_SP_atnn nn => .ldRpAtNn .sp nn
  | .ldi => .ldBlock .up false
  | .cpi => .cpBlock .up false
  | .ini => .inBlock .up false
  | .outi => .outBlock .up false
  | .ldd => .ldBlock .down false
  | .cpd => .cpBlock .down false
  | .ind => .inBlock .down false
  | .outd => .outBlock .down false
  | .ldir => .ldBlock .up true
  | .cpir => .cpBlock .up true
  | .inir => .inBlock .up true
  | .otir => .outBlock .up true
  | .lddr => .ldBlock .down true
  | .cpdr => .cpBlock .down true
  | .indr => .inBlock .down true
  | .otdr => .outBlock .down true
  | .ddIgnored_NOP => .ignored .ix 0x00
  | .ddIgnored_LD_BC_nn => .ignored .ix 0x01
  | .ddIgnored_LD_atBC_A => .ignored .ix 0x02
  | .ddIgnored_INC_BC => .ignored .ix 0x03
  | .ddIgnored_INC_B => .ignored .ix 0x04
  | .ddIgnored_DEC_B => .ignored .ix 0x05
  | .ddIgnored_LD_B_n => .ignored .ix 0x06
  | .ddIgnored_RLCA => .ignored .ix 0x07
  | .ddIgnored_EX_AF_AF => .ignored .ix 0x08
  | .add_IX_BC => .addXy .ix .bc
  | .ddIgnored_LD_A_atBC => .ignored .ix 0x0A
  | .ddIgnored_DEC_BC => .ignored .ix 0x0B
  | .ddIgnored_INC_C => .ignored .ix 0x0C
  | .ddIgnored_DEC_C => .ignored .ix 0x0D
  | .ddIgnored_LD_C_n => .ignored .ix 0x0E
  | .ddIgnored_RRCA => .ignored .ix 0x0F
  | .ddIgnored_DJNZ_e => .ignored .ix 0x10
  | .ddIgnored_LD_DE_nn => .ignored .ix 0x11
  | .ddIgnored_LD_atDE_A => .ignored .ix 0x12
  | .ddIgnored_INC_DE => .ignored .ix 0x13
  | .ddIgnored_INC_D => .ignored .ix 0x14
  | .ddIgnored_DEC_D => .ignored .ix 0x15
  | .ddIgnored_LD_D_n => .ignored .ix 0x16
  | .ddIgnored_RLA => .ignored .ix 0x17
  | .ddIgnored_JR_e => .ignored .ix 0x18
  | .add_IX_DE => .addXy .ix .de
  | .ddIgnored_LD_A_atDE => .ignored .ix 0x1A
  | .ddIgnored_DEC_DE => .ignored .ix 0x1B
  | .ddIgnored_INC_E => .ignored .ix 0x1C
  | .ddIgnored_DEC_E => .ignored .ix 0x1D
  | .ddIgnored_LD_E_n => .ignored .ix 0x1E
  | .ddIgnored_RRA => .ignored .ix 0x1F
  | .ddIgnored_JR_NZ_e => .ignored .ix 0x20
  | .ld_IX_nn nn => .ldXyNn .ix nn
  | .ld_atnn_IX nn => .ldNnXy .ix nn
  | .inc_IX => .incXy .ix
  | .inc_IXH => .incX .ix .h
  | .dec_IXH => .decX .ix .h
  | .ld_IXH_n n => .ldXN .ix .h n
  | .ddIgnored_DAA => .ignored .ix 0x27
  | .ddIgnored_JR_Z_e => .ignored .ix 0x28
  | .add_IX_IX => .addXy .ix .hl
  | .ld_IX_atnn nn => .ldXyAtNn .ix nn
  | .dec_IX => .decXy .ix
  | .inc_IXL => .incX .ix .l
  | .dec_IXL => .decX .ix .l
  | .ld_IXL_n n => .ldXN .ix .l n
  | .ddIgnored_CPL => .ignored .ix 0x2F
  | .ddIgnored_JR_NC_e => .ignored .ix 0x30
  | .ddIgnored_LD_SP_nn => .ignored .ix 0x31
  | .ddIgnored_LD_atnn_A => .ignored .ix 0x32
  | .ddIgnored_INC_SP => .ignored .ix 0x33
  | .inc_atIXd d => .incIdx .ix d
  | .dec_atIXd d => .decIdx .ix d
  | .ld_atIXd_n d n => .ldIdxN .ix d n
  | .ddIgnored_SCF => .ignored .ix 0x37
  | .ddIgnored_JR_C_e => .ignored .ix 0x38
  | .add_IX_SP => .addXy .ix .sp
  | .ddIgnored_LD_A_atnn => .ignored .ix 0x3A
  | .ddIgnored_DEC_SP => .ignored .ix 0x3B
  | .ddIgnored_INC_A => .ignored .ix 0x3C
  | .ddIgnored_DEC_A => .ignored .ix 0x3D
  | .ddIgnored_LD_A_n => .ignored .ix 0x3E
  | .ddIgnored_CCF => .ignored .ix 0x3F
  | .ddIgnored_LD_B_B => .ignored .ix 0x40
  | .ddIgnored_LD_B_C => .ignored .ix 0x41
  | .ddIgnored_LD_B_D => .ignored .ix 0x42
  | .ddIgnored_LD_B_E => .ignored .ix 0x43
  | .ld_B_IXH => .ldXX .ix .b .h
  | .ld_B_IXL => .ldXX .ix .b .l
  | .ld_B_atIXd d => .ldRIdx .ix .b d
  | .ddIgnored_LD_B_A => .ignored .ix 0x47
  | .ddIgnored_LD_C_B => .ignored .ix 0x48
  | .ddIgnored_LD_C_C => .ignored .ix 0x49
  | .ddIgnored_LD_C_D => .ignored .ix 0x4A
  | .ddIgnored_LD_C_E => .ignored .ix 0x4B
  | .ld_C_IXH => .ldXX .ix .c .h
  | .ld_C_IXL => .ldXX .ix .c .l
  | .ld_C_atIXd d => .ldRIdx .ix .c d
  | .ddIgnored_LD_C_A => .ignored .ix 0x4F
  | .ddIgnored_LD_D_B => .ignored .ix 0x50
  | .ddIgnored_LD_D_C => .ignored .ix 0x51
  | .ddIgnored_LD_D_D => .ignored .ix 0x52
  | .ddIgnored_LD_D_E => .ignored .ix 0x53
  | .ld_D_IXH => .ldXX .ix .d .h
  | .ld_D_IXL => .ldXX .ix .d .l
  | .ld_D_atIXd d => .ldRIdx .ix .d d
  | .ddIgnored_LD_D_A => .ignored .ix 0x57
  | .ddIgnored_LD_E_B => .ignored .ix 0x58
  | .ddIgnored_LD_E_C => .ignored .ix 0x59
  | .ddIgnored_LD_E_D => .ignored .ix 0x5A
  | .ddIgnored_LD_E_E => .ignored .ix 0x5B
  | .ld_E_IXH => .ldXX .ix .e .h
  | .ld_E_IXL => .ldXX .ix .e .l
  | .ld_E_atIXd d => .ldRIdx .ix .e d
  | .ddIgnored_LD_E_A => .ignored .ix 0x5F
  | .ld_IXH_B => .ldXX .ix .h .b
  | .ld_IXH_C => .ldXX .ix .h .c
  | .ld_IXH_D => .ldXX .ix .h .d
  | .ld_IXH_E => .ldXX .ix .h .e
  | .ld_IXH_IXH => .ldXX .ix .h .h
  | .ld_IXH_IXL => .ldXX .ix .h .l
  | .ld_H_atIXd d => .ldRIdx .ix .h d
  | .ld_IXH_A => .ldXX .ix .h .a
  | .ld_IXL_B => .ldXX .ix .l .b
  | .ld_IXL_C => .ldXX .ix .l .c
  | .ld_IXL_D => .ldXX .ix .l .d
  | .ld_IXL_E => .ldXX .ix .l .e
  | .ld_IXL_IXH => .ldXX .ix .l .h
  | .ld_IXL_IXL => .ldXX .ix .l .l
  | .ld_L_atIXd d => .ldRIdx .ix .l d
  | .ld_IXL_A => .ldXX .ix .l .a
  | .ld_atIXd_B d => .ldIdxR .ix .b d
  | .ld_atIXd_C d => .ldIdxR .ix .c d
  | .ld_atIXd_D d => .ldIdxR .ix .d d
  | .ld_atIXd_E d => .ldIdxR .ix .e d
  | .ld_atIXd_H d => .ldIdxR .ix .h d
  | .ld_atIXd_L d => .ldIdxR .ix .l d
  | .ddIgnored_HALT => .ignored .ix 0x76
  | .ld_atIXd_A d => .ldIdxR .ix .a d
  | .ddIgnored_LD_A_B => .ignored .ix 0x78
  | .ddIgnored_LD_A_C => .ignored .ix 0x79
  | .ddIgnored_LD_A_D => .ignored .ix 0x7A
  | .ddIgnored_LD_A_E => .ignored .ix 0x7B
  | .ld_A_IXH => .ldXX .ix .a .h
  | .ld_A_IXL => .ldXX .ix .a .l
  | .ld_A_atIXd d => .ldRIdx .ix .a d
  | .ddIgnored_LD_A_A => .ignored .ix 0x7F
  | .ddIgnored_ADD_A_B => .ignored .ix 0x80
  | .ddIgnored_ADD_A_C => .ignored .ix 0x81
  | .ddIgnored_ADD_A_D => .ignored .ix 0x82
  | .ddIgnored_ADD_A_E => .ignored .ix 0x83
  | .add_A_IXH => .aluX .add .ix .h
  | .add_A_IXL => .aluX .add .ix .l
  | .add_A_atIXd d => .aluIdx .add .ix d
  | .ddIgnored_ADD_A_A => .ignored .ix 0x87
  | .ddIgnored_ADC_A_B => .ignored .ix 0x88
  | .ddIgnored_ADC_A_C => .ignored .ix 0x89
  | .ddIgnored_ADC_A_D => .ignored .ix 0x8A
  | .ddIgnored_ADC_A_E => .ignored .ix 0x8B
  | .adc_A_IXH => .aluX .adc .ix .h
  | .adc_A_IXL => .aluX .adc .ix .l
  | .adc_A_atIXd d => .aluIdx .adc .ix d
  | .ddIgnored_ADC_A_A => .ignored .ix 0x8F
  | .ddIgnored_SUB_B => .ignored .ix 0x90
  | .ddIgnored_SUB_C => .ignored .ix 0x91
  | .ddIgnored_SUB_D => .ignored .ix 0x92
  | .ddIgnored_SUB_E => .ignored .ix 0x93
  | .sub_IXH => .aluX .sub .ix .h
  | .sub_IXL => .aluX .sub .ix .l
  | .sub_atIXd d => .aluIdx .sub .ix d
  | .ddIgnored_SUB_A => .ignored .ix 0x97
  | .ddIgnored_SBC_A_B => .ignored .ix 0x98
  | .ddIgnored_SBC_A_C => .ignored .ix 0x99
  | .ddIgnored_SBC_A_D => .ignored .ix 0x9A
  | .ddIgnored_SBC_A_E => .ignored .ix 0x9B
  | .sbc_A_IXH => .aluX .sbc .ix .h
  | .sbc_A_IXL => .aluX .sbc .ix .l
  | .sbc_A_atIXd d => .aluIdx .sbc .ix d
  | .ddIgnored_SBC_A_A => .ignored .ix 0x9F
  | .ddIgnored_AND_B => .ignored .ix 0xA0
  | .ddIgnored_AND_C => .ignored .ix 0xA1
  | .ddIgnored_AND_D => .ignored .ix 0xA2
  | .ddIgnored_AND_E => .ignored .ix 0xA3
  | .and_IXH => .aluX .and .ix .h
  | .and_IXL => .aluX .and .ix .l
  | .and_atIXd d => .aluIdx .and .ix d
  | .ddIgnored_AND_A => .ignored .ix 0xA7
  | .ddIgnored_XOR_B => .ignored .ix 0xA8
  | .ddIgnored_XOR_C => .ignored .ix 0xA9
  | .ddIgnored_XOR_D => .ignored .ix 0xAA
  | .ddIgnored_XOR_E => .ignored .ix 0xAB
  | .xor_IXH => .aluX .xor .ix .h
  | .xor_IXL => .aluX .xor .ix .l
  | .xor_atIXd d => .aluIdx .xor .ix d
  | .ddIgnored_XOR_A => .ignored .ix 0xAF
  | .ddIgnored_OR_B => .ignored .ix 0xB0
  | .ddIgnored_OR_C => .ignored .ix 0xB1
  | .ddIgnored_OR_D => .ignored .ix 0xB2
  | .ddIgnored_OR_E => .ignored .ix 0xB3
  | .or_IXH => .aluX .or .ix .h
  | .or_IXL => .aluX .or .ix .l
  | .or_atIXd d => .aluIdx .or .ix d
  | .ddIgnored_OR_A => .ignored .ix 0xB7
  | .ddIgnored_CP_B => .ignored .ix 0xB8
  | .ddIgnored_CP_C => .ignored .ix 0xB9
  | .ddIgnored_CP_D => .ignored .ix 0xBA
  | .ddIgnored_CP_E => .ignored .ix 0xBB
  | .cp_IXH => .aluX .cp .ix .h
  | .cp_IXL => .aluX .cp .ix .l
  | .cp_atIXd d => .aluIdx .cp .ix d
  | .ddIgnored_CP_A => .ignored .ix 0xBF
  | .ddIgnored_RET_NZ => .ignored .ix 0xC0
  | .ddIgnored_POP_BC => .ignored .ix 0xC1
  | .ddIgnored_JP_NZ_nn => .ignored .ix 0xC2
  | .ddIgnored_JP_nn => .ignored .ix 0xC3
  | .ddIgnored_CALL_NZ_nn => .ignored .ix 0xC4
  | .ddIgnored_PUSH_BC => .ignored .ix 0xC5
  | .ddIgnored_ADD_A_n => .ignored .ix 0xC6
  | .ddIgnored_RST_00H => .ignored .ix 0xC7
  | .ddIgnored_RET_Z => .ignored .ix 0xC8
  | .ddIgnored_RET => .ignored .ix 0xC9
  | .ddIgnored_JP_Z_nn => .ignored .ix 0xCA
  | .ddIgnored_CALL_Z_nn => .ignored .ix 0xCC
  | .ddIgnored_CALL_nn => .ignored .ix 0xCD
  | .ddIgnored_ADC_A_n => .ignored .ix 0xCE
  | .ddIgnored_RST_08H => .ignored .ix 0xCF
  | .ddIgnored_RET_NC => .ignored .ix 0xD0
  | .ddIgnored_POP_DE => .ignored .ix 0xD1
  | .ddIgnored_JP_NC_nn => .ignored .ix 0xD2
  | .ddIgnored_OUT_atn_A => .ignored .ix 0xD3
  | .ddIgnored_CALL_NC_nn => .ignored .ix 0xD4
  | .ddIgnored_PUSH_DE => .ignored .ix 0xD5
  | .ddIgnored_SUB_n => .ignored .ix 0xD6
  | .ddIgnored_RST_10H => .ignored .ix 0xD7
  | .ddIgnored_RET_C => .ignored .ix 0xD8
  | .ddIgnored_EXX => .ignored .ix 0xD9
  | .ddIgnored_JP_C_nn => .ignored .ix 0xDA
  | .ddIgnored_IN_A_atn => .ignored .ix 0xDB
  | .ddIgnored_CALL_C_nn => .ignored .ix 0xDC
  | .ddIgnored_prefix_DD => .ignored .ix 0xDD
  | .ddIgnored_SBC_A_n => .ignored .ix 0xDE
  | .ddIgnored_RST_18H => .ignored .ix 0xDF
  | .ddIgnored_RET_PO => .ignored .ix 0xE0
  | .pop_IX => .popXy .ix
  | .ddIgnored_JP_PO_nn => .ignored .ix 0xE2
  | .ex_atSP_IX => .exSpXy .ix
  | .ddIgnored_CALL_PO_nn => .ignored .ix 0xE4
  | .push_IX => .pushXy .ix
  | .ddIgnored_AND_n => .ignored .ix 0xE6
  | .ddIgnored_RST_20H => .ignored .ix 0xE7
  | .ddIgnored_RET_PE => .ignored .ix 0xE8
  | .jp_atIX => .jpXy .ix
  | .ddIgnored_JP_PE_nn => .ignored .ix 0xEA
  | .ddIgnored_EX_DE_HL => .ignored .ix 0xEB
  | .ddIgnored_CALL_PE_nn => .ignored .ix 0xEC
  | .ddIgnored_ED_page => .ignored .ix 0xED
  | .ddIgnored_XOR_n => .ignored .ix 0xEE
  | .ddIgnored_RST_28H => .ignored .ix 0xEF
  | .ddIgnored_RET_P => .ignored .ix 0xF0
  | .ddIgnored_POP_AF => .ignored .ix 0xF1
  | .ddIgnored_JP_P_nn => .ignored .ix 0xF2
  | .ddIgnored_DI => .ignored .ix 0xF3
  | .ddIgnored_CALL_P_nn => .ignored .ix 0xF4
  | .ddIgnored_PUSH_AF => .ignored .ix 0xF5
  | .ddIgnored_OR_n => .ignored .ix 0xF6
  | .ddIgnored_RST_30H => .ignored .ix 0xF7
  | .ddIgnored_RET_M => .ignored .ix 0xF8
  | .ld_SP_IX => .ldSpXy .ix
  | .ddIgnored_JP_M_nn => .ignored .ix 0xFA
  | .ddIgnored_EI => .ignored .ix 0xFB
  | .ddIgnored_CALL_M_nn => .ignored .ix 0xFC
  | .ddIgnored_prefix_FD => .ignored .ix 0xFD
  | .ddIgnored_CP_n => .ignored .ix 0xFE
  | .ddIgnored_RST_38H => .ignored .ix 0xFF
  | .fdIgnored_NOP => .ignored .iy 0x00
  | .fdIgnored_LD_BC_nn => .ignored .iy 0x01
  | .fdIgnored_LD_atBC_A => .ignored .iy 0x02
  | .fdIgnored_INC_BC => .ignored .iy 0x03
  | .fdIgnored_INC_B => .ignored .iy 0x04
  | .fdIgnored_DEC_B => .ignored .iy 0x05
  | .fdIgnored_LD_B_n => .ignored .iy 0x06
  | .fdIgnored_RLCA => .ignored .iy 0x07
  | .fdIgnored_EX_AF_AF => .ignored .iy 0x08
  | .add_IY_BC => .addXy .iy .bc
  | .fdIgnored_LD_A_atBC => .ignored .iy 0x0A
  | .fdIgnored_DEC_BC => .ignored .iy 0x0B
  | .fdIgnored_INC_C => .ignored .iy 0x0C
  | .fdIgnored_DEC_C => .ignored .iy 0x0D
  | .fdIgnored_LD_C_n => .ignored .iy 0x0E
  | .fdIgnored_RRCA => .ignored .iy 0x0F
  | .fdIgnored_DJNZ_e => .ignored .iy 0x10
  | .fdIgnored_LD_DE_nn => .ignored .iy 0x11
  | .fdIgnored_LD_atDE_A => .ignored .iy 0x12
  | .fdIgnored_INC_DE => .ignored .iy 0x13
  | .fdIgnored_INC_D => .ignored .iy 0x14
  | .fdIgnored_DEC_D => .ignored .iy 0x15
  | .fdIgnored_LD_D_n => .ignored .iy 0x16
  | .fdIgnored_RLA => .ignored .iy 0x17
  | .fdIgnored_JR_e => .ignored .iy 0x18
  | .add_IY_DE => .addXy .iy .de
  | .fdIgnored_LD_A_atDE => .ignored .iy 0x1A
  | .fdIgnored_DEC_DE => .ignored .iy 0x1B
  | .fdIgnored_INC_E => .ignored .iy 0x1C
  | .fdIgnored_DEC_E => .ignored .iy 0x1D
  | .fdIgnored_LD_E_n => .ignored .iy 0x1E
  | .fdIgnored_RRA => .ignored .iy 0x1F
  | .fdIgnored_JR_NZ_e => .ignored .iy 0x20
  | .ld_IY_nn nn => .ldXyNn .iy nn
  | .ld_atnn_IY nn => .ldNnXy .iy nn
  | .inc_IY => .incXy .iy
  | .inc_IYH => .incX .iy .h
  | .dec_IYH => .decX .iy .h
  | .ld_IYH_n n => .ldXN .iy .h n
  | .fdIgnored_DAA => .ignored .iy 0x27
  | .fdIgnored_JR_Z_e => .ignored .iy 0x28
  | .add_IY_IY => .addXy .iy .hl
  | .ld_IY_atnn nn => .ldXyAtNn .iy nn
  | .dec_IY => .decXy .iy
  | .inc_IYL => .incX .iy .l
  | .dec_IYL => .decX .iy .l
  | .ld_IYL_n n => .ldXN .iy .l n
  | .fdIgnored_CPL => .ignored .iy 0x2F
  | .fdIgnored_JR_NC_e => .ignored .iy 0x30
  | .fdIgnored_LD_SP_nn => .ignored .iy 0x31
  | .fdIgnored_LD_atnn_A => .ignored .iy 0x32
  | .fdIgnored_INC_SP => .ignored .iy 0x33
  | .inc_atIYd d => .incIdx .iy d
  | .dec_atIYd d => .decIdx .iy d
  | .ld_atIYd_n d n => .ldIdxN .iy d n
  | .fdIgnored_SCF => .ignored .iy 0x37
  | .fdIgnored_JR_C_e => .ignored .iy 0x38
  | .add_IY_SP => .addXy .iy .sp
  | .fdIgnored_LD_A_atnn => .ignored .iy 0x3A
  | .fdIgnored_DEC_SP => .ignored .iy 0x3B
  | .fdIgnored_INC_A => .ignored .iy 0x3C
  | .fdIgnored_DEC_A => .ignored .iy 0x3D
  | .fdIgnored_LD_A_n => .ignored .iy 0x3E
  | .fdIgnored_CCF => .ignored .iy 0x3F
  | .fdIgnored_LD_B_B => .ignored .iy 0x40
  | .fdIgnored_LD_B_C => .ignored .iy 0x41
  | .fdIgnored_LD_B_D => .ignored .iy 0x42
  | .fdIgnored_LD_B_E => .ignored .iy 0x43
  | .ld_B_IYH => .ldXX .iy .b .h
  | .ld_B_IYL => .ldXX .iy .b .l
  | .ld_B_atIYd d => .ldRIdx .iy .b d
  | .fdIgnored_LD_B_A => .ignored .iy 0x47
  | .fdIgnored_LD_C_B => .ignored .iy 0x48
  | .fdIgnored_LD_C_C => .ignored .iy 0x49
  | .fdIgnored_LD_C_D => .ignored .iy 0x4A
  | .fdIgnored_LD_C_E => .ignored .iy 0x4B
  | .ld_C_IYH => .ldXX .iy .c .h
  | .ld_C_IYL => .ldXX .iy .c .l
  | .ld_C_atIYd d => .ldRIdx .iy .c d
  | .fdIgnored_LD_C_A => .ignored .iy 0x4F
  | .fdIgnored_LD_D_B => .ignored .iy 0x50
  | .fdIgnored_LD_D_C => .ignored .iy 0x51
  | .fdIgnored_LD_D_D => .ignored .iy 0x52
  | .fdIgnored_LD_D_E => .ignored .iy 0x53
  | .ld_D_IYH => .ldXX .iy .d .h
  | .ld_D_IYL => .ldXX .iy .d .l
  | .ld_D_atIYd d => .ldRIdx .iy .d d
  | .fdIgnored_LD_D_A => .ignored .iy 0x57
  | .fdIgnored_LD_E_B => .ignored .iy 0x58
  | .fdIgnored_LD_E_C => .ignored .iy 0x59
  | .fdIgnored_LD_E_D => .ignored .iy 0x5A
  | .fdIgnored_LD_E_E => .ignored .iy 0x5B
  | .ld_E_IYH => .ldXX .iy .e .h
  | .ld_E_IYL => .ldXX .iy .e .l
  | .ld_E_atIYd d => .ldRIdx .iy .e d
  | .fdIgnored_LD_E_A => .ignored .iy 0x5F
  | .ld_IYH_B => .ldXX .iy .h .b
  | .ld_IYH_C => .ldXX .iy .h .c
  | .ld_IYH_D => .ldXX .iy .h .d
  | .ld_IYH_E => .ldXX .iy .h .e
  | .ld_IYH_IYH => .ldXX .iy .h .h
  | .ld_IYH_IYL => .ldXX .iy .h .l
  | .ld_H_atIYd d => .ldRIdx .iy .h d
  | .ld_IYH_A => .ldXX .iy .h .a
  | .ld_IYL_B => .ldXX .iy .l .b
  | .ld_IYL_C => .ldXX .iy .l .c
  | .ld_IYL_D => .ldXX .iy .l .d
  | .ld_IYL_E => .ldXX .iy .l .e
  | .ld_IYL_IYH => .ldXX .iy .l .h
  | .ld_IYL_IYL => .ldXX .iy .l .l
  | .ld_L_atIYd d => .ldRIdx .iy .l d
  | .ld_IYL_A => .ldXX .iy .l .a
  | .ld_atIYd_B d => .ldIdxR .iy .b d
  | .ld_atIYd_C d => .ldIdxR .iy .c d
  | .ld_atIYd_D d => .ldIdxR .iy .d d
  | .ld_atIYd_E d => .ldIdxR .iy .e d
  | .ld_atIYd_H d => .ldIdxR .iy .h d
  | .ld_atIYd_L d => .ldIdxR .iy .l d
  | .fdIgnored_HALT => .ignored .iy 0x76
  | .ld_atIYd_A d => .ldIdxR .iy .a d
  | .fdIgnored_LD_A_B => .ignored .iy 0x78
  | .fdIgnored_LD_A_C => .ignored .iy 0x79
  | .fdIgnored_LD_A_D => .ignored .iy 0x7A
  | .fdIgnored_LD_A_E => .ignored .iy 0x7B
  | .ld_A_IYH => .ldXX .iy .a .h
  | .ld_A_IYL => .ldXX .iy .a .l
  | .ld_A_atIYd d => .ldRIdx .iy .a d
  | .fdIgnored_LD_A_A => .ignored .iy 0x7F
  | .fdIgnored_ADD_A_B => .ignored .iy 0x80
  | .fdIgnored_ADD_A_C => .ignored .iy 0x81
  | .fdIgnored_ADD_A_D => .ignored .iy 0x82
  | .fdIgnored_ADD_A_E => .ignored .iy 0x83
  | .add_A_IYH => .aluX .add .iy .h
  | .add_A_IYL => .aluX .add .iy .l
  | .add_A_atIYd d => .aluIdx .add .iy d
  | .fdIgnored_ADD_A_A => .ignored .iy 0x87
  | .fdIgnored_ADC_A_B => .ignored .iy 0x88
  | .fdIgnored_ADC_A_C => .ignored .iy 0x89
  | .fdIgnored_ADC_A_D => .ignored .iy 0x8A
  | .fdIgnored_ADC_A_E => .ignored .iy 0x8B
  | .adc_A_IYH => .aluX .adc .iy .h
  | .adc_A_IYL => .aluX .adc .iy .l
  | .adc_A_atIYd d => .aluIdx .adc .iy d
  | .fdIgnored_ADC_A_A => .ignored .iy 0x8F
  | .fdIgnored_SUB_B => .ignored .iy 0x90
  | .fdIgnored_SUB_C => .ignored .iy 0x91
  | .fdIgnored_SUB_D => .ignored .iy 0x92
  | .fdIgnored_SUB_E => .ignored .iy 0x93
  | .sub_IYH => .aluX .sub .iy .h
  | .sub_IYL => .aluX .sub .iy .l
  | .sub_atIYd d => .aluIdx .sub .iy d
  | .fdIgnored_SUB_A => .ignored .iy 0x97
  | .fdIgnored_SBC_A_B => .ignored .iy 0x98
  | .fdIgnored_SBC_A_C => .ignored .iy 0x99
  | .fdIgnored_SBC_A_D => .ignored .iy 0x9A
  | .fdIgnored_SBC_A_E => .ignored .iy 0x9B
  | .sbc_A_IYH => .aluX .sbc .iy .h
  | .sbc_A_IYL => .aluX .sbc .iy .l
  | .sbc_A_atIYd d => .aluIdx .sbc .iy d
  | .fdIgnored_SBC_A_A => .ignored .iy 0x9F
  | .fdIgnored_AND_B => .ignored .iy 0xA0
  | .fdIgnored_AND_C => .ignored .iy 0xA1
  | .fdIgnored_AND_D => .ignored .iy 0xA2
  | .fdIgnored_AND_E => .ignored .iy 0xA3
  | .and_IYH => .aluX .and .iy .h
  | .and_IYL => .aluX .and .iy .l
  | .and_atIYd d => .aluIdx .and .iy d
  | .fdIgnored_AND_A => .ignored .iy 0xA7
  | .fdIgnored_XOR_B => .ignored .iy 0xA8
  | .fdIgnored_XOR_C => .ignored .iy 0xA9
  | .fdIgnored_XOR_D => .ignored .iy 0xAA
  | .fdIgnored_XOR_E => .ignored .iy 0xAB
  | .xor_IYH => .aluX .xor .iy .h
  | .xor_IYL => .aluX .xor .iy .l
  | .xor_atIYd d => .aluIdx .xor .iy d
  | .fdIgnored_XOR_A => .ignored .iy 0xAF
  | .fdIgnored_OR_B => .ignored .iy 0xB0
  | .fdIgnored_OR_C => .ignored .iy 0xB1
  | .fdIgnored_OR_D => .ignored .iy 0xB2
  | .fdIgnored_OR_E => .ignored .iy 0xB3
  | .or_IYH => .aluX .or .iy .h
  | .or_IYL => .aluX .or .iy .l
  | .or_atIYd d => .aluIdx .or .iy d
  | .fdIgnored_OR_A => .ignored .iy 0xB7
  | .fdIgnored_CP_B => .ignored .iy 0xB8
  | .fdIgnored_CP_C => .ignored .iy 0xB9
  | .fdIgnored_CP_D => .ignored .iy 0xBA
  | .fdIgnored_CP_E => .ignored .iy 0xBB
  | .cp_IYH => .aluX .cp .iy .h
  | .cp_IYL => .aluX .cp .iy .l
  | .cp_atIYd d => .aluIdx .cp .iy d
  | .fdIgnored_CP_A => .ignored .iy 0xBF
  | .fdIgnored_RET_NZ => .ignored .iy 0xC0
  | .fdIgnored_POP_BC => .ignored .iy 0xC1
  | .fdIgnored_JP_NZ_nn => .ignored .iy 0xC2
  | .fdIgnored_JP_nn => .ignored .iy 0xC3
  | .fdIgnored_CALL_NZ_nn => .ignored .iy 0xC4
  | .fdIgnored_PUSH_BC => .ignored .iy 0xC5
  | .fdIgnored_ADD_A_n => .ignored .iy 0xC6
  | .fdIgnored_RST_00H => .ignored .iy 0xC7
  | .fdIgnored_RET_Z => .ignored .iy 0xC8
  | .fdIgnored_RET => .ignored .iy 0xC9
  | .fdIgnored_JP_Z_nn => .ignored .iy 0xCA
  | .fdIgnored_CALL_Z_nn => .ignored .iy 0xCC
  | .fdIgnored_CALL_nn => .ignored .iy 0xCD
  | .fdIgnored_ADC_A_n => .ignored .iy 0xCE
  | .fdIgnored_RST_08H => .ignored .iy 0xCF
  | .fdIgnored_RET_NC => .ignored .iy 0xD0
  | .fdIgnored_POP_DE => .ignored .iy 0xD1
  | .fdIgnored_JP_NC_nn => .ignored .iy 0xD2
  | .fdIgnored_OUT_atn_A => .ignored .iy 0xD3
  | .fdIgnored_CALL_NC_nn => .ignored .iy 0xD4
  | .fdIgnored_PUSH_DE => .ignored .iy 0xD5
  | .fdIgnored_SUB_n => .ignored .iy 0xD6
  | .fdIgnored_RST_10H => .ignored .iy 0xD7
  | .fdIgnored_RET_C => .ignored .iy 0xD8
  | .fdIgnored_EXX => .ignored .iy 0xD9
  | .fdIgnored_JP_C_nn => .ignored .iy 0xDA
  | .fdIgnored_IN_A_atn => .ignored .iy 0xDB
  | .fdIgnored_CALL_C_nn => .ignored .iy 0xDC
  | .fdIgnored_prefix_DD => .ignored .iy 0xDD
  | .fdIgnored_SBC_A_n => .ignored .iy 0xDE
  | .fdIgnored_RST_18H => .ignored .iy 0xDF
  | .fdIgnored_RET_PO => .ignored .iy 0xE0
  | .pop_IY => .popXy .iy
  | .fdIgnored_JP_PO_nn => .ignored .iy 0xE2
  | .ex_atSP_IY => .exSpXy .iy
  | .fdIgnored_CALL_PO_nn => .ignored .iy 0xE4
  | .push_IY => .pushXy .iy
  | .fdIgnored_AND_n => .ignored .iy 0xE6
  | .fdIgnored_RST_20H => .ignored .iy 0xE7
  | .fdIgnored_RET_PE => .ignored .iy 0xE8
  | .jp_atIY => .jpXy .iy
  | .fdIgnored_JP_PE_nn => .ignored .iy 0xEA
  | .fdIgnored_EX_DE_HL => .ignored .iy 0xEB
  | .fdIgnored_CALL_PE_nn => .ignored .iy 0xEC
  | .fdIgnored_ED_page => .ignored .iy 0xED
  | .fdIgnored_XOR_n => .ignored .iy 0xEE
  | .fdIgnored_RST_28H => .ignored .iy 0xEF
  | .fdIgnored_RET_P => .ignored .iy 0xF0
  | .fdIgnored_POP_AF => .ignored .iy 0xF1
  | .fdIgnored_JP_P_nn => .ignored .iy 0xF2
  | .fdIgnored_DI => .ignored .iy 0xF3
  | .fdIgnored_CALL_P_nn => .ignored .iy 0xF4
  | .fdIgnored_PUSH_AF => .ignored .iy 0xF5
  | .fdIgnored_OR_n => .ignored .iy 0xF6
  | .fdIgnored_RST_30H => .ignored .iy 0xF7
  | .fdIgnored_RET_M => .ignored .iy 0xF8
  | .ld_SP_IY => .ldSpXy .iy
  | .fdIgnored_JP_M_nn => .ignored .iy 0xFA
  | .fdIgnored_EI => .ignored .iy 0xFB
  | .fdIgnored_CALL_M_nn => .ignored .iy 0xFC
  | .fdIgnored_prefix_FD => .ignored .iy 0xFD
  | .fdIgnored_CP_n => .ignored .iy 0xFE
  | .fdIgnored_RST_38H => .ignored .iy 0xFF
  | .rlc_atIXd_B d => .rotIdx .rlc .ix d (some .b)
  | .rlc_atIXd_C d => .rotIdx .rlc .ix d (some .c)
  | .rlc_atIXd_D d => .rotIdx .rlc .ix d (some .d)
  | .rlc_atIXd_E d => .rotIdx .rlc .ix d (some .e)
  | .rlc_atIXd_H d => .rotIdx .rlc .ix d (some .h)
  | .rlc_atIXd_L d => .rotIdx .rlc .ix d (some .l)
  | .rlc_atIXd d => .rotIdx .rlc .ix d none
  | .rlc_atIXd_A d => .rotIdx .rlc .ix d (some .a)
  | .rrc_atIXd_B d => .rotIdx .rrc .ix d (some .b)
  | .rrc_atIXd_C d => .rotIdx .rrc .ix d (some .c)
  | .rrc_atIXd_D d => .rotIdx .rrc .ix d (some .d)
  | .rrc_atIXd_E d => .rotIdx .rrc .ix d (some .e)
  | .rrc_atIXd_H d => .rotIdx .rrc .ix d (some .h)
  | .rrc_atIXd_L d => .rotIdx .rrc .ix d (some .l)
  | .rrc_atIXd d => .rotIdx .rrc .ix d none
  | .rrc_atIXd_A d => .rotIdx .rrc .ix d (some .a)
  | .rl_atIXd_B d => .rotIdx .rl .ix d (some .b)
  | .rl_atIXd_C d => .rotIdx .rl .ix d (some .c)
  | .rl_atIXd_D d => .rotIdx .rl .ix d (some .d)
  | .rl_atIXd_E d => .rotIdx .rl .ix d (some .e)
  | .rl_atIXd_H d => .rotIdx .rl .ix d (some .h)
  | .rl_atIXd_L d => .rotIdx .rl .ix d (some .l)
  | .rl_atIXd d => .rotIdx .rl .ix d none
  | .rl_atIXd_A d => .rotIdx .rl .ix d (some .a)
  | .rr_atIXd_B d => .rotIdx .rr .ix d (some .b)
  | .rr_atIXd_C d => .rotIdx .rr .ix d (some .c)
  | .rr_atIXd_D d => .rotIdx .rr .ix d (some .d)
  | .rr_atIXd_E d => .rotIdx .rr .ix d (some .e)
  | .rr_atIXd_H d => .rotIdx .rr .ix d (some .h)
  | .rr_atIXd_L d => .rotIdx .rr .ix d (some .l)
  | .rr_atIXd d => .rotIdx .rr .ix d none
  | .rr_atIXd_A d => .rotIdx .rr .ix d (some .a)
  | .sla_atIXd_B d => .rotIdx .sla .ix d (some .b)
  | .sla_atIXd_C d => .rotIdx .sla .ix d (some .c)
  | .sla_atIXd_D d => .rotIdx .sla .ix d (some .d)
  | .sla_atIXd_E d => .rotIdx .sla .ix d (some .e)
  | .sla_atIXd_H d => .rotIdx .sla .ix d (some .h)
  | .sla_atIXd_L d => .rotIdx .sla .ix d (some .l)
  | .sla_atIXd d => .rotIdx .sla .ix d none
  | .sla_atIXd_A d => .rotIdx .sla .ix d (some .a)
  | .sra_atIXd_B d => .rotIdx .sra .ix d (some .b)
  | .sra_atIXd_C d => .rotIdx .sra .ix d (some .c)
  | .sra_atIXd_D d => .rotIdx .sra .ix d (some .d)
  | .sra_atIXd_E d => .rotIdx .sra .ix d (some .e)
  | .sra_atIXd_H d => .rotIdx .sra .ix d (some .h)
  | .sra_atIXd_L d => .rotIdx .sra .ix d (some .l)
  | .sra_atIXd d => .rotIdx .sra .ix d none
  | .sra_atIXd_A d => .rotIdx .sra .ix d (some .a)
  | .sll_atIXd_B d => .rotIdx .sll .ix d (some .b)
  | .sll_atIXd_C d => .rotIdx .sll .ix d (some .c)
  | .sll_atIXd_D d => .rotIdx .sll .ix d (some .d)
  | .sll_atIXd_E d => .rotIdx .sll .ix d (some .e)
  | .sll_atIXd_H d => .rotIdx .sll .ix d (some .h)
  | .sll_atIXd_L d => .rotIdx .sll .ix d (some .l)
  | .sll_atIXd d => .rotIdx .sll .ix d none
  | .sll_atIXd_A d => .rotIdx .sll .ix d (some .a)
  | .srl_atIXd_B d => .rotIdx .srl .ix d (some .b)
  | .srl_atIXd_C d => .rotIdx .srl .ix d (some .c)
  | .srl_atIXd_D d => .rotIdx .srl .ix d (some .d)
  | .srl_atIXd_E d => .rotIdx .srl .ix d (some .e)
  | .srl_atIXd_H d => .rotIdx .srl .ix d (some .h)
  | .srl_atIXd_L d => .rotIdx .srl .ix d (some .l)
  | .srl_atIXd d => .rotIdx .srl .ix d none
  | .srl_atIXd_A d => .rotIdx .srl .ix d (some .a)
  | .bit_0_atIXd d z => .bitIdx 0 .ix d z
  | .bit_1_atIXd d z => .bitIdx 1 .ix d z
  | .bit_2_atIXd d z => .bitIdx 2 .ix d z
  | .bit_3_atIXd d z => .bitIdx 3 .ix d z
  | .bit_4_atIXd d z => .bitIdx 4 .ix d z
  | .bit_5_atIXd d z => .bitIdx 5 .ix d z
  | .bit_6_atIXd d z => .bitIdx 6 .ix d z
  | .bit_7_atIXd d z => .bitIdx 7 .ix d z
  | .res_0_atIXd_B d => .resIdx 0 .ix d (some .b)
  | .res_0_atIXd_C d => .resIdx 0 .ix d (some .c)
  | .res_0_atIXd_D d => .resIdx 0 .ix d (some .d)
  | .res_0_atIXd_E d => .resIdx 0 .ix d (some .e)
  | .res_0_atIXd_H d => .resIdx 0 .ix d (some .h)
  | .res_0_atIXd_L d => .resIdx 0 .ix d (some .l)
  | .res_0_atIXd d => .resIdx 0 .ix d none
  | .res_0_atIXd_A d => .resIdx 0 .ix d (some .a)
  | .res_1_atIXd_B d => .resIdx 1 .ix d (some .b)
  | .res_1_atIXd_C d => .resIdx 1 .ix d (some .c)
  | .res_1_atIXd_D d => .resIdx 1 .ix d (some .d)
  | .res_1_atIXd_E d => .resIdx 1 .ix d (some .e)
  | .res_1_atIXd_H d => .resIdx 1 .ix d (some .h)
  | .res_1_atIXd_L d => .resIdx 1 .ix d (some .l)
  | .res_1_atIXd d => .resIdx 1 .ix d none
  | .res_1_atIXd_A d => .resIdx 1 .ix d (some .a)
  | .res_2_atIXd_B d => .resIdx 2 .ix d (some .b)
  | .res_2_atIXd_C d => .resIdx 2 .ix d (some .c)
  | .res_2_atIXd_D d => .resIdx 2 .ix d (some .d)
  | .res_2_atIXd_E d => .resIdx 2 .ix d (some .e)
  | .res_2_atIXd_H d => .resIdx 2 .ix d (some .h)
  | .res_2_atIXd_L d => .resIdx 2 .ix d (some .l)
  | .res_2_atIXd d => .resIdx 2 .ix d none
  | .res_2_atIXd_A d => .resIdx 2 .ix d (some .a)
  | .res_3_atIXd_B d => .resIdx 3 .ix d (some .b)
  | .res_3_atIXd_C d => .resIdx 3 .ix d (some .c)
  | .res_3_atIXd_D d => .resIdx 3 .ix d (some .d)
  | .res_3_atIXd_E d => .resIdx 3 .ix d (some .e)
  | .res_3_atIXd_H d => .resIdx 3 .ix d (some .h)
  | .res_3_atIXd_L d => .resIdx 3 .ix d (some .l)
  | .res_3_atIXd d => .resIdx 3 .ix d none
  | .res_3_atIXd_A d => .resIdx 3 .ix d (some .a)
  | .res_4_atIXd_B d => .resIdx 4 .ix d (some .b)
  | .res_4_atIXd_C d => .resIdx 4 .ix d (some .c)
  | .res_4_atIXd_D d => .resIdx 4 .ix d (some .d)
  | .res_4_atIXd_E d => .resIdx 4 .ix d (some .e)
  | .res_4_atIXd_H d => .resIdx 4 .ix d (some .h)
  | .res_4_atIXd_L d => .resIdx 4 .ix d (some .l)
  | .res_4_atIXd d => .resIdx 4 .ix d none
  | .res_4_atIXd_A d => .resIdx 4 .ix d (some .a)
  | .res_5_atIXd_B d => .resIdx 5 .ix d (some .b)
  | .res_5_atIXd_C d => .resIdx 5 .ix d (some .c)
  | .res_5_atIXd_D d => .resIdx 5 .ix d (some .d)
  | .res_5_atIXd_E d => .resIdx 5 .ix d (some .e)
  | .res_5_atIXd_H d => .resIdx 5 .ix d (some .h)
  | .res_5_atIXd_L d => .resIdx 5 .ix d (some .l)
  | .res_5_atIXd d => .resIdx 5 .ix d none
  | .res_5_atIXd_A d => .resIdx 5 .ix d (some .a)
  | .res_6_atIXd_B d => .resIdx 6 .ix d (some .b)
  | .res_6_atIXd_C d => .resIdx 6 .ix d (some .c)
  | .res_6_atIXd_D d => .resIdx 6 .ix d (some .d)
  | .res_6_atIXd_E d => .resIdx 6 .ix d (some .e)
  | .res_6_atIXd_H d => .resIdx 6 .ix d (some .h)
  | .res_6_atIXd_L d => .resIdx 6 .ix d (some .l)
  | .res_6_atIXd d => .resIdx 6 .ix d none
  | .res_6_atIXd_A d => .resIdx 6 .ix d (some .a)
  | .res_7_atIXd_B d => .resIdx 7 .ix d (some .b)
  | .res_7_atIXd_C d => .resIdx 7 .ix d (some .c)
  | .res_7_atIXd_D d => .resIdx 7 .ix d (some .d)
  | .res_7_atIXd_E d => .resIdx 7 .ix d (some .e)
  | .res_7_atIXd_H d => .resIdx 7 .ix d (some .h)
  | .res_7_atIXd_L d => .resIdx 7 .ix d (some .l)
  | .res_7_atIXd d => .resIdx 7 .ix d none
  | .res_7_atIXd_A d => .resIdx 7 .ix d (some .a)
  | .set_0_atIXd_B d => .setIdx 0 .ix d (some .b)
  | .set_0_atIXd_C d => .setIdx 0 .ix d (some .c)
  | .set_0_atIXd_D d => .setIdx 0 .ix d (some .d)
  | .set_0_atIXd_E d => .setIdx 0 .ix d (some .e)
  | .set_0_atIXd_H d => .setIdx 0 .ix d (some .h)
  | .set_0_atIXd_L d => .setIdx 0 .ix d (some .l)
  | .set_0_atIXd d => .setIdx 0 .ix d none
  | .set_0_atIXd_A d => .setIdx 0 .ix d (some .a)
  | .set_1_atIXd_B d => .setIdx 1 .ix d (some .b)
  | .set_1_atIXd_C d => .setIdx 1 .ix d (some .c)
  | .set_1_atIXd_D d => .setIdx 1 .ix d (some .d)
  | .set_1_atIXd_E d => .setIdx 1 .ix d (some .e)
  | .set_1_atIXd_H d => .setIdx 1 .ix d (some .h)
  | .set_1_atIXd_L d => .setIdx 1 .ix d (some .l)
  | .set_1_atIXd d => .setIdx 1 .ix d none
  | .set_1_atIXd_A d => .setIdx 1 .ix d (some .a)
  | .set_2_atIXd_B d => .setIdx 2 .ix d (some .b)
  | .set_2_atIXd_C d => .setIdx 2 .ix d (some .c)
  | .set_2_atIXd_D d => .setIdx 2 .ix d (some .d)
  | .set_2_atIXd_E d => .setIdx 2 .ix d (some .e)
  | .set_2_atIXd_H d => .setIdx 2 .ix d (some .h)
  | .set_2_atIXd_L d => .setIdx 2 .ix d (some .l)
  | .set_2_atIXd d => .setIdx 2 .ix d none
  | .set_2_atIXd_A d => .setIdx 2 .ix d (some .a)
  | .set_3_atIXd_B d => .setIdx 3 .ix d (some .b)
  | .set_3_atIXd_C d => .setIdx 3 .ix d (some .c)
  | .set_3_atIXd_D d => .setIdx 3 .ix d (some .d)
  | .set_3_atIXd_E d => .setIdx 3 .ix d (some .e)
  | .set_3_atIXd_H d => .setIdx 3 .ix d (some .h)
  | .set_3_atIXd_L d => .setIdx 3 .ix d (some .l)
  | .set_3_atIXd d => .setIdx 3 .ix d none
  | .set_3_atIXd_A d => .setIdx 3 .ix d (some .a)
  | .set_4_atIXd_B d => .setIdx 4 .ix d (some .b)
  | .set_4_atIXd_C d => .setIdx 4 .ix d (some .c)
  | .set_4_atIXd_D d => .setIdx 4 .ix d (some .d)
  | .set_4_atIXd_E d => .setIdx 4 .ix d (some .e)
  | .set_4_atIXd_H d => .setIdx 4 .ix d (some .h)
  | .set_4_atIXd_L d => .setIdx 4 .ix d (some .l)
  | .set_4_atIXd d => .setIdx 4 .ix d none
  | .set_4_atIXd_A d => .setIdx 4 .ix d (some .a)
  | .set_5_atIXd_B d => .setIdx 5 .ix d (some .b)
  | .set_5_atIXd_C d => .setIdx 5 .ix d (some .c)
  | .set_5_atIXd_D d => .setIdx 5 .ix d (some .d)
  | .set_5_atIXd_E d => .setIdx 5 .ix d (some .e)
  | .set_5_atIXd_H d => .setIdx 5 .ix d (some .h)
  | .set_5_atIXd_L d => .setIdx 5 .ix d (some .l)
  | .set_5_atIXd d => .setIdx 5 .ix d none
  | .set_5_atIXd_A d => .setIdx 5 .ix d (some .a)
  | .set_6_atIXd_B d => .setIdx 6 .ix d (some .b)
  | .set_6_atIXd_C d => .setIdx 6 .ix d (some .c)
  | .set_6_atIXd_D d => .setIdx 6 .ix d (some .d)
  | .set_6_atIXd_E d => .setIdx 6 .ix d (some .e)
  | .set_6_atIXd_H d => .setIdx 6 .ix d (some .h)
  | .set_6_atIXd_L d => .setIdx 6 .ix d (some .l)
  | .set_6_atIXd d => .setIdx 6 .ix d none
  | .set_6_atIXd_A d => .setIdx 6 .ix d (some .a)
  | .set_7_atIXd_B d => .setIdx 7 .ix d (some .b)
  | .set_7_atIXd_C d => .setIdx 7 .ix d (some .c)
  | .set_7_atIXd_D d => .setIdx 7 .ix d (some .d)
  | .set_7_atIXd_E d => .setIdx 7 .ix d (some .e)
  | .set_7_atIXd_H d => .setIdx 7 .ix d (some .h)
  | .set_7_atIXd_L d => .setIdx 7 .ix d (some .l)
  | .set_7_atIXd d => .setIdx 7 .ix d none
  | .set_7_atIXd_A d => .setIdx 7 .ix d (some .a)
  | .rlc_atIYd_B d => .rotIdx .rlc .iy d (some .b)
  | .rlc_atIYd_C d => .rotIdx .rlc .iy d (some .c)
  | .rlc_atIYd_D d => .rotIdx .rlc .iy d (some .d)
  | .rlc_atIYd_E d => .rotIdx .rlc .iy d (some .e)
  | .rlc_atIYd_H d => .rotIdx .rlc .iy d (some .h)
  | .rlc_atIYd_L d => .rotIdx .rlc .iy d (some .l)
  | .rlc_atIYd d => .rotIdx .rlc .iy d none
  | .rlc_atIYd_A d => .rotIdx .rlc .iy d (some .a)
  | .rrc_atIYd_B d => .rotIdx .rrc .iy d (some .b)
  | .rrc_atIYd_C d => .rotIdx .rrc .iy d (some .c)
  | .rrc_atIYd_D d => .rotIdx .rrc .iy d (some .d)
  | .rrc_atIYd_E d => .rotIdx .rrc .iy d (some .e)
  | .rrc_atIYd_H d => .rotIdx .rrc .iy d (some .h)
  | .rrc_atIYd_L d => .rotIdx .rrc .iy d (some .l)
  | .rrc_atIYd d => .rotIdx .rrc .iy d none
  | .rrc_atIYd_A d => .rotIdx .rrc .iy d (some .a)
  | .rl_atIYd_B d => .rotIdx .rl .iy d (some .b)
  | .rl_atIYd_C d => .rotIdx .rl .iy d (some .c)
  | .rl_atIYd_D d => .rotIdx .rl .iy d (some .d)
  | .rl_atIYd_E d => .rotIdx .rl .iy d (some .e)
  | .rl_atIYd_H d => .rotIdx .rl .iy d (some .h)
  | .rl_atIYd_L d => .rotIdx .rl .iy d (some .l)
  | .rl_atIYd d => .rotIdx .rl .iy d none
  | .rl_atIYd_A d => .rotIdx .rl .iy d (some .a)
  | .rr_atIYd_B d => .rotIdx .rr .iy d (some .b)
  | .rr_atIYd_C d => .rotIdx .rr .iy d (some .c)
  | .rr_atIYd_D d => .rotIdx .rr .iy d (some .d)
  | .rr_atIYd_E d => .rotIdx .rr .iy d (some .e)
  | .rr_atIYd_H d => .rotIdx .rr .iy d (some .h)
  | .rr_atIYd_L d => .rotIdx .rr .iy d (some .l)
  | .rr_atIYd d => .rotIdx .rr .iy d none
  | .rr_atIYd_A d => .rotIdx .rr .iy d (some .a)
  | .sla_atIYd_B d => .rotIdx .sla .iy d (some .b)
  | .sla_atIYd_C d => .rotIdx .sla .iy d (some .c)
  | .sla_atIYd_D d => .rotIdx .sla .iy d (some .d)
  | .sla_atIYd_E d => .rotIdx .sla .iy d (some .e)
  | .sla_atIYd_H d => .rotIdx .sla .iy d (some .h)
  | .sla_atIYd_L d => .rotIdx .sla .iy d (some .l)
  | .sla_atIYd d => .rotIdx .sla .iy d none
  | .sla_atIYd_A d => .rotIdx .sla .iy d (some .a)
  | .sra_atIYd_B d => .rotIdx .sra .iy d (some .b)
  | .sra_atIYd_C d => .rotIdx .sra .iy d (some .c)
  | .sra_atIYd_D d => .rotIdx .sra .iy d (some .d)
  | .sra_atIYd_E d => .rotIdx .sra .iy d (some .e)
  | .sra_atIYd_H d => .rotIdx .sra .iy d (some .h)
  | .sra_atIYd_L d => .rotIdx .sra .iy d (some .l)
  | .sra_atIYd d => .rotIdx .sra .iy d none
  | .sra_atIYd_A d => .rotIdx .sra .iy d (some .a)
  | .sll_atIYd_B d => .rotIdx .sll .iy d (some .b)
  | .sll_atIYd_C d => .rotIdx .sll .iy d (some .c)
  | .sll_atIYd_D d => .rotIdx .sll .iy d (some .d)
  | .sll_atIYd_E d => .rotIdx .sll .iy d (some .e)
  | .sll_atIYd_H d => .rotIdx .sll .iy d (some .h)
  | .sll_atIYd_L d => .rotIdx .sll .iy d (some .l)
  | .sll_atIYd d => .rotIdx .sll .iy d none
  | .sll_atIYd_A d => .rotIdx .sll .iy d (some .a)
  | .srl_atIYd_B d => .rotIdx .srl .iy d (some .b)
  | .srl_atIYd_C d => .rotIdx .srl .iy d (some .c)
  | .srl_atIYd_D d => .rotIdx .srl .iy d (some .d)
  | .srl_atIYd_E d => .rotIdx .srl .iy d (some .e)
  | .srl_atIYd_H d => .rotIdx .srl .iy d (some .h)
  | .srl_atIYd_L d => .rotIdx .srl .iy d (some .l)
  | .srl_atIYd d => .rotIdx .srl .iy d none
  | .srl_atIYd_A d => .rotIdx .srl .iy d (some .a)
  | .bit_0_atIYd d z => .bitIdx 0 .iy d z
  | .bit_1_atIYd d z => .bitIdx 1 .iy d z
  | .bit_2_atIYd d z => .bitIdx 2 .iy d z
  | .bit_3_atIYd d z => .bitIdx 3 .iy d z
  | .bit_4_atIYd d z => .bitIdx 4 .iy d z
  | .bit_5_atIYd d z => .bitIdx 5 .iy d z
  | .bit_6_atIYd d z => .bitIdx 6 .iy d z
  | .bit_7_atIYd d z => .bitIdx 7 .iy d z
  | .res_0_atIYd_B d => .resIdx 0 .iy d (some .b)
  | .res_0_atIYd_C d => .resIdx 0 .iy d (some .c)
  | .res_0_atIYd_D d => .resIdx 0 .iy d (some .d)
  | .res_0_atIYd_E d => .resIdx 0 .iy d (some .e)
  | .res_0_atIYd_H d => .resIdx 0 .iy d (some .h)
  | .res_0_atIYd_L d => .resIdx 0 .iy d (some .l)
  | .res_0_atIYd d => .resIdx 0 .iy d none
  | .res_0_atIYd_A d => .resIdx 0 .iy d (some .a)
  | .res_1_atIYd_B d => .resIdx 1 .iy d (some .b)
  | .res_1_atIYd_C d => .resIdx 1 .iy d (some .c)
  | .res_1_atIYd_D d => .resIdx 1 .iy d (some .d)
  | .res_1_atIYd_E d => .resIdx 1 .iy d (some .e)
  | .res_1_atIYd_H d => .resIdx 1 .iy d (some .h)
  | .res_1_atIYd_L d => .resIdx 1 .iy d (some .l)
  | .res_1_atIYd d => .resIdx 1 .iy d none
  | .res_1_atIYd_A d => .resIdx 1 .iy d (some .a)
  | .res_2_atIYd_B d => .resIdx 2 .iy d (some .b)
  | .res_2_atIYd_C d => .resIdx 2 .iy d (some .c)
  | .res_2_atIYd_D d => .resIdx 2 .iy d (some .d)
  | .res_2_atIYd_E d => .resIdx 2 .iy d (some .e)
  | .res_2_atIYd_H d => .resIdx 2 .iy d (some .h)
  | .res_2_atIYd_L d => .resIdx 2 .iy d (some .l)
  | .res_2_atIYd d => .resIdx 2 .iy d none
  | .res_2_atIYd_A d => .resIdx 2 .iy d (some .a)
  | .res_3_atIYd_B d => .resIdx 3 .iy d (some .b)
  | .res_3_atIYd_C d => .resIdx 3 .iy d (some .c)
  | .res_3_atIYd_D d => .resIdx 3 .iy d (some .d)
  | .res_3_atIYd_E d => .resIdx 3 .iy d (some .e)
  | .res_3_atIYd_H d => .resIdx 3 .iy d (some .h)
  | .res_3_atIYd_L d => .resIdx 3 .iy d (some .l)
  | .res_3_atIYd d => .resIdx 3 .iy d none
  | .res_3_atIYd_A d => .resIdx 3 .iy d (some .a)
  | .res_4_atIYd_B d => .resIdx 4 .iy d (some .b)
  | .res_4_atIYd_C d => .resIdx 4 .iy d (some .c)
  | .res_4_atIYd_D d => .resIdx 4 .iy d (some .d)
  | .res_4_atIYd_E d => .resIdx 4 .iy d (some .e)
  | .res_4_atIYd_H d => .resIdx 4 .iy d (some .h)
  | .res_4_atIYd_L d => .resIdx 4 .iy d (some .l)
  | .res_4_atIYd d => .resIdx 4 .iy d none
  | .res_4_atIYd_A d => .resIdx 4 .iy d (some .a)
  | .res_5_atIYd_B d => .resIdx 5 .iy d (some .b)
  | .res_5_atIYd_C d => .resIdx 5 .iy d (some .c)
  | .res_5_atIYd_D d => .resIdx 5 .iy d (some .d)
  | .res_5_atIYd_E d => .resIdx 5 .iy d (some .e)
  | .res_5_atIYd_H d => .resIdx 5 .iy d (some .h)
  | .res_5_atIYd_L d => .resIdx 5 .iy d (some .l)
  | .res_5_atIYd d => .resIdx 5 .iy d none
  | .res_5_atIYd_A d => .resIdx 5 .iy d (some .a)
  | .res_6_atIYd_B d => .resIdx 6 .iy d (some .b)
  | .res_6_atIYd_C d => .resIdx 6 .iy d (some .c)
  | .res_6_atIYd_D d => .resIdx 6 .iy d (some .d)
  | .res_6_atIYd_E d => .resIdx 6 .iy d (some .e)
  | .res_6_atIYd_H d => .resIdx 6 .iy d (some .h)
  | .res_6_atIYd_L d => .resIdx 6 .iy d (some .l)
  | .res_6_atIYd d => .resIdx 6 .iy d none
  | .res_6_atIYd_A d => .resIdx 6 .iy d (some .a)
  | .res_7_atIYd_B d => .resIdx 7 .iy d (some .b)
  | .res_7_atIYd_C d => .resIdx 7 .iy d (some .c)
  | .res_7_atIYd_D d => .resIdx 7 .iy d (some .d)
  | .res_7_atIYd_E d => .resIdx 7 .iy d (some .e)
  | .res_7_atIYd_H d => .resIdx 7 .iy d (some .h)
  | .res_7_atIYd_L d => .resIdx 7 .iy d (some .l)
  | .res_7_atIYd d => .resIdx 7 .iy d none
  | .res_7_atIYd_A d => .resIdx 7 .iy d (some .a)
  | .set_0_atIYd_B d => .setIdx 0 .iy d (some .b)
  | .set_0_atIYd_C d => .setIdx 0 .iy d (some .c)
  | .set_0_atIYd_D d => .setIdx 0 .iy d (some .d)
  | .set_0_atIYd_E d => .setIdx 0 .iy d (some .e)
  | .set_0_atIYd_H d => .setIdx 0 .iy d (some .h)
  | .set_0_atIYd_L d => .setIdx 0 .iy d (some .l)
  | .set_0_atIYd d => .setIdx 0 .iy d none
  | .set_0_atIYd_A d => .setIdx 0 .iy d (some .a)
  | .set_1_atIYd_B d => .setIdx 1 .iy d (some .b)
  | .set_1_atIYd_C d => .setIdx 1 .iy d (some .c)
  | .set_1_atIYd_D d => .setIdx 1 .iy d (some .d)
  | .set_1_atIYd_E d => .setIdx 1 .iy d (some .e)
  | .set_1_atIYd_H d => .setIdx 1 .iy d (some .h)
  | .set_1_atIYd_L d => .setIdx 1 .iy d (some .l)
  | .set_1_atIYd d => .setIdx 1 .iy d none
  | .set_1_atIYd_A d => .setIdx 1 .iy d (some .a)
  | .set_2_atIYd_B d => .setIdx 2 .iy d (some .b)
  | .set_2_atIYd_C d => .setIdx 2 .iy d (some .c)
  | .set_2_atIYd_D d => .setIdx 2 .iy d (some .d)
  | .set_2_atIYd_E d => .setIdx 2 .iy d (some .e)
  | .set_2_atIYd_H d => .setIdx 2 .iy d (some .h)
  | .set_2_atIYd_L d => .setIdx 2 .iy d (some .l)
  | .set_2_atIYd d => .setIdx 2 .iy d none
  | .set_2_atIYd_A d => .setIdx 2 .iy d (some .a)
  | .set_3_atIYd_B d => .setIdx 3 .iy d (some .b)
  | .set_3_atIYd_C d => .setIdx 3 .iy d (some .c)
  | .set_3_atIYd_D d => .setIdx 3 .iy d (some .d)
  | .set_3_atIYd_E d => .setIdx 3 .iy d (some .e)
  | .set_3_atIYd_H d => .setIdx 3 .iy d (some .h)
  | .set_3_atIYd_L d => .setIdx 3 .iy d (some .l)
  | .set_3_atIYd d => .setIdx 3 .iy d none
  | .set_3_atIYd_A d => .setIdx 3 .iy d (some .a)
  | .set_4_atIYd_B d => .setIdx 4 .iy d (some .b)
  | .set_4_atIYd_C d => .setIdx 4 .iy d (some .c)
  | .set_4_atIYd_D d => .setIdx 4 .iy d (some .d)
  | .set_4_atIYd_E d => .setIdx 4 .iy d (some .e)
  | .set_4_atIYd_H d => .setIdx 4 .iy d (some .h)
  | .set_4_atIYd_L d => .setIdx 4 .iy d (some .l)
  | .set_4_atIYd d => .setIdx 4 .iy d none
  | .set_4_atIYd_A d => .setIdx 4 .iy d (some .a)
  | .set_5_atIYd_B d => .setIdx 5 .iy d (some .b)
  | .set_5_atIYd_C d => .setIdx 5 .iy d (some .c)
  | .set_5_atIYd_D d => .setIdx 5 .iy d (some .d)
  | .set_5_atIYd_E d => .setIdx 5 .iy d (some .e)
  | .set_5_atIYd_H d => .setIdx 5 .iy d (some .h)
  | .set_5_atIYd_L d => .setIdx 5 .iy d (some .l)
  | .set_5_atIYd d => .setIdx 5 .iy d none
  | .set_5_atIYd_A d => .setIdx 5 .iy d (some .a)
  | .set_6_atIYd_B d => .setIdx 6 .iy d (some .b)
  | .set_6_atIYd_C d => .setIdx 6 .iy d (some .c)
  | .set_6_atIYd_D d => .setIdx 6 .iy d (some .d)
  | .set_6_atIYd_E d => .setIdx 6 .iy d (some .e)
  | .set_6_atIYd_H d => .setIdx 6 .iy d (some .h)
  | .set_6_atIYd_L d => .setIdx 6 .iy d (some .l)
  | .set_6_atIYd d => .setIdx 6 .iy d none
  | .set_6_atIYd_A d => .setIdx 6 .iy d (some .a)
  | .set_7_atIYd_B d => .setIdx 7 .iy d (some .b)
  | .set_7_atIYd_C d => .setIdx 7 .iy d (some .c)
  | .set_7_atIYd_D d => .setIdx 7 .iy d (some .d)
  | .set_7_atIYd_E d => .setIdx 7 .iy d (some .e)
  | .set_7_atIYd_H d => .setIdx 7 .iy d (some .h)
  | .set_7_atIYd_L d => .setIdx 7 .iy d (some .l)
  | .set_7_atIYd d => .setIdx 7 .iy d none
  | .set_7_atIYd_A d => .setIdx 7 .iy d (some .a)

end Sys2Proof
end

