-- ==== Sys2Proof/WellFormed.lean ====
section
/-! DEFINITION. Which instructions the encoding has (30_encoding.md): the checks that the types of `Form` and `Instr` do not
already make. -/

namespace Sys2Proof

/-- Field `x = op[7:6]` (rule R161). -/
def opX (op : Byte) : Nat := op.toNat / 64

/-- Field `y = op[5:3]` (rule R161). -/
def opY (op : Byte) : Nat := op.toNat / 8 % 8

/-- Field `z = op[2:0]` (rule R161). -/
def opZ (op : Byte) : Nat := op.toNat % 8

/-- The HL-affected opcodes `HLX` (rule R171). -/
def hlx : List Byte :=
  [0x09, 0x19, 0x21, 0x22, 0x23, 0x24, 0x25, 0x26, 0x29, 0x2A, 0x2B, 0x2C, 0x2D, 0x2E, 0x34, 0x35, 0x36, 0x39, 0x44, 0x45, 0x46, 0x4C, 0x4D, 0x4E, 0x54, 0x55, 0x56, 0x5C, 0x5D, 0x5E,
   0x60, 0x61, 0x62, 0x63, 0x64, 0x65, 0x66, 0x67, 0x68, 0x69, 0x6A, 0x6B, 0x6C, 0x6D, 0x6E, 0x6F, 0x70, 0x71, 0x72, 0x73, 0x74, 0x75, 0x77, 0x7C, 0x7D, 0x7E, 0x84, 0x85, 0x86, 0x8C,
   0x8D, 0x8E, 0x94, 0x95, 0x96, 0x9C, 0x9D, 0x9E, 0xA4, 0xA5, 0xA6, 0xAC, 0xAD, 0xAE, 0xB4, 0xB5, 0xB6, 0xBC, 0xBD, 0xBE, 0xCB, 0xE1, 0xE3, 0xE5, 0xE9, 0xF9]

/-- The undefined ED opcodes, each an `ED NOP` (rules R170 and R175). -/
def edUndefined (op : Byte) : Bool :=
  opX op == 0 || opX op == 3 || op == 0x77 || op == 0x7F ||
    (opX op == 2 && !(decide (4 ≤ opY op) && decide (opZ op ≤ 3)))

/-- `r[4]` or `r[5]`, the codes an index prefix replaces (rule R172). -/
def R7.isHL : R7 → Bool
  | .h => true
  | .l => true
  | _ => false

/-- The forms the encoding has: an index-half form names a half, a discarded prefix stands before an opcode outside `HLX`,
an `ED NOP` has an undefined opcode, and `RETN` is not `RETI`'s code (rules R170 to R175). -/
def Form.wf : Form → Bool
  | .ldXX _ y z => y.isHL || z.isHL
  | .ldXN _ y _ => y.isHL
  | .aluX _ _ z => z.isHL
  | .incX _ y => y.isHL
  | .decX _ y => y.isHL
  | .edNop op => edUndefined op
  | .retn y => y != 1
  | .ignored _ op => !(hlx.contains op)
  | _ => true

/-- A well-formed instruction. -/
def Instr.wf (i : Instr) : Bool := i.form.wf

end Sys2Proof
end

