-- ==== Sys2Proof/Decode.lean ====
section
/-! DEFINITION. The decoder, total on any bytes (30_encoding.md rules R160 to R175), its opcode tables (one row per byte of
each page, rules R168 to R174), and after it the encoder, written from the field formulas of the same rules. -/

namespace Sys2Proof

open Sys2Proof.Machine (mkWord lo hi)

/-- The opcode pages reached through a prefix. -/
inductive Page where
  | cb
  | ed
  | index (i : XY)
  | xcb (i : XY)
  deriving DecidableEq, Repr

/-- One row of a page: what follows the opcode byte. -/
inductive Row (α : Type) where
  /-- No operand byte. -/
  | plain (i : α)
  /-- One operand byte (`n`, `e` or `d`). -/
  | imm8 (f : Byte → α)
  /-- One operand byte, read after one internal T-state (DJNZ, 48_jump_call.md rule R544). -/
  | late8 (f : Byte → α)
  /-- A 16-bit operand, low byte first. -/
  | imm16 (f : Word → α)
  /-- A displacement and then an immediate byte (format Xdn). -/
  | imm8x2 (f : Byte → Byte → α)
  /-- A `P` row: the prefix is discarded and the byte after it begins the rest of the instruction (rule R173). -/
  | dropped (i : α)
  /-- A prefix byte. -/
  | page (p : Page)

/-- Why a byte string is not an instruction. -/
inductive Reject where
  /-- The string ends inside an instruction. -/
  | truncated
  /-- A page has no row for the byte; no page is so (`decode_only_truncated` in Laws/Decode.lean). -/
  | noRow
  deriving DecidableEq, Repr

noncomputable section

/-- The unprefixed opcodes (rule R168), opcodes 00 to 3F. -/
def mainPage0 : List (Row Instr) :=
  [
   .plain .nop, .imm16 .ld_BC_nn, .plain .ld_atBC_A, .plain .inc_BC, .plain .inc_B, .plain .dec_B, .imm8 .ld_B_n,
   .plain .rlca, .plain .ex_AF_AF, .plain .add_HL_BC, .plain .ld_A_atBC, .plain .dec_BC, .plain .inc_C,
   .plain .dec_C, .imm8 .ld_C_n, .plain .rrca, .late8 .djnz_e, .imm16 .ld_DE_nn, .plain .ld_atDE_A, .plain .inc_DE,
   .plain .inc_D, .plain .dec_D, .imm8 .ld_D_n, .plain .rla, .imm8 .jr_e, .plain .add_HL_DE, .plain .ld_A_atDE,
   .plain .dec_DE, .plain .inc_E, .plain .dec_E, .imm8 .ld_E_n, .plain .rra, .imm8 .jr_NZ_e, .imm16 .ld_HL_nn,
   .imm16 .ld_atnn_HL, .plain .inc_HL, .plain .inc_H, .plain .dec_H, .imm8 .ld_H_n, .plain .daa, .imm8 .jr_Z_e,
   .plain .add_HL_HL, .imm16 .ld_HL_atnn, .plain .dec_HL, .plain .inc_L, .plain .dec_L, .imm8 .ld_L_n, .plain .cpl,
   .imm8 .jr_NC_e, .imm16 .ld_SP_nn, .imm16 .ld_atnn_A, .plain .inc_SP, .plain .inc_atHL, .plain .dec_atHL,
   .imm8 .ld_atHL_n, .plain .scf, .imm8 .jr_C_e, .plain .add_HL_SP, .imm16 .ld_A_atnn, .plain .dec_SP, .plain .inc_A,
   .plain .dec_A, .imm8 .ld_A_n, .plain .ccf]

/-- The unprefixed opcodes (rule R168), opcodes 40 to 7F. -/
def mainPage1 : List (Row Instr) :=
  [
   .plain .ld_B_B, .plain .ld_B_C, .plain .ld_B_D, .plain .ld_B_E, .plain .ld_B_H, .plain .ld_B_L, .plain .ld_B_atHL,
   .plain .ld_B_A, .plain .ld_C_B, .plain .ld_C_C, .plain .ld_C_D, .plain .ld_C_E, .plain .ld_C_H, .plain .ld_C_L,
   .plain .ld_C_atHL, .plain .ld_C_A, .plain .ld_D_B, .plain .ld_D_C, .plain .ld_D_D, .plain .ld_D_E, .plain .ld_D_H,
   .plain .ld_D_L, .plain .ld_D_atHL, .plain .ld_D_A, .plain .ld_E_B, .plain .ld_E_C, .plain .ld_E_D, .plain .ld_E_E,
   .plain .ld_E_H, .plain .ld_E_L, .plain .ld_E_atHL, .plain .ld_E_A, .plain .ld_H_B, .plain .ld_H_C, .plain .ld_H_D,
   .plain .ld_H_E, .plain .ld_H_H, .plain .ld_H_L, .plain .ld_H_atHL, .plain .ld_H_A, .plain .ld_L_B, .plain .ld_L_C,
   .plain .ld_L_D, .plain .ld_L_E, .plain .ld_L_H, .plain .ld_L_L, .plain .ld_L_atHL, .plain .ld_L_A,
   .plain .ld_atHL_B, .plain .ld_atHL_C, .plain .ld_atHL_D, .plain .ld_atHL_E, .plain .ld_atHL_H, .plain .ld_atHL_L,
   .plain .halt, .plain .ld_atHL_A, .plain .ld_A_B, .plain .ld_A_C, .plain .ld_A_D, .plain .ld_A_E, .plain .ld_A_H,
   .plain .ld_A_L, .plain .ld_A_atHL, .plain .ld_A_A]

/-- The unprefixed opcodes (rule R168), opcodes 80 to BF. -/
def mainPage2 : List (Row Instr) :=
  [
   .plain .add_A_B, .plain .add_A_C, .plain .add_A_D, .plain .add_A_E, .plain .add_A_H, .plain .add_A_L,
   .plain .add_A_atHL, .plain .add_A_A, .plain .adc_A_B, .plain .adc_A_C, .plain .adc_A_D, .plain .adc_A_E,
   .plain .adc_A_H, .plain .adc_A_L, .plain .adc_A_atHL, .plain .adc_A_A, .plain .sub_B, .plain .sub_C,
   .plain .sub_D, .plain .sub_E, .plain .sub_H, .plain .sub_L, .plain .sub_atHL, .plain .sub_A, .plain .sbc_A_B,
   .plain .sbc_A_C, .plain .sbc_A_D, .plain .sbc_A_E, .plain .sbc_A_H, .plain .sbc_A_L, .plain .sbc_A_atHL,
   .plain .sbc_A_A, .plain .and_B, .plain .and_C, .plain .and_D, .plain .and_E, .plain .and_H, .plain .and_L,
   .plain .and_atHL, .plain .and_A, .plain .xor_B, .plain .xor_C, .plain .xor_D, .plain .xor_E, .plain .xor_H,
   .plain .xor_L, .plain .xor_atHL, .plain .xor_A, .plain .or_B, .plain .or_C, .plain .or_D, .plain .or_E,
   .plain .or_H, .plain .or_L, .plain .or_atHL, .plain .or_A, .plain .cp_B, .plain .cp_C, .plain .cp_D, .plain .cp_E,
   .plain .cp_H, .plain .cp_L, .plain .cp_atHL, .plain .cp_A]

/-- The unprefixed opcodes (rule R168), opcodes C0 to FF. -/
def mainPage3 : List (Row Instr) :=
  [
   .plain .ret_NZ, .plain .pop_BC, .imm16 .jp_NZ_nn, .imm16 .jp_nn, .imm16 .call_NZ_nn, .plain .push_BC,
   .imm8 .add_A_n, .plain .rst_00H, .plain .ret_Z, .plain .ret, .imm16 .jp_Z_nn, .page .cb, .imm16 .call_Z_nn,
   .imm16 .call_nn, .imm8 .adc_A_n, .plain .rst_08H, .plain .ret_NC, .plain .pop_DE, .imm16 .jp_NC_nn,
   .imm8 .out_atn_A, .imm16 .call_NC_nn, .plain .push_DE, .imm8 .sub_n, .plain .rst_10H, .plain .ret_C, .plain .exx,
   .imm16 .jp_C_nn, .imm8 .in_A_atn, .imm16 .call_C_nn, .page (.index .ix), .imm8 .sbc_A_n, .plain .rst_18H,
   .plain .ret_PO, .plain .pop_HL, .imm16 .jp_PO_nn, .plain .ex_atSP_HL, .imm16 .call_PO_nn, .plain .push_HL,
   .imm8 .and_n, .plain .rst_20H, .plain .ret_PE, .plain .jp_atHL, .imm16 .jp_PE_nn, .plain .ex_DE_HL,
   .imm16 .call_PE_nn, .page .ed, .imm8 .xor_n, .plain .rst_28H, .plain .ret_P, .plain .pop_AF, .imm16 .jp_P_nn,
   .plain .di, .imm16 .call_P_nn, .plain .push_AF, .imm8 .or_n, .plain .rst_30H, .plain .ret_M, .plain .ld_SP_HL,
   .imm16 .jp_M_nn, .plain .ei, .imm16 .call_M_nn, .page (.index .iy), .imm8 .cp_n, .plain .rst_38H]

/-- The unprefixed opcodes (rule R168). -/
def mainPage : List (Row Instr) := mainPage0 ++ mainPage1 ++ mainPage2 ++ mainPage3

/-- The CB page (rule R169), opcodes 00 to 3F. -/
def cbPage0 : List (Row Instr) :=
  [
   .plain .rlc_B, .plain .rlc_C, .plain .rlc_D, .plain .rlc_E, .plain .rlc_H, .plain .rlc_L, .plain .rlc_atHL,
   .plain .rlc_A, .plain .rrc_B, .plain .rrc_C, .plain .rrc_D, .plain .rrc_E, .plain .rrc_H, .plain .rrc_L,
   .plain .rrc_atHL, .plain .rrc_A, .plain .rl_B, .plain .rl_C, .plain .rl_D, .plain .rl_E, .plain .rl_H,
   .plain .rl_L, .plain .rl_atHL, .plain .rl_A, .plain .rr_B, .plain .rr_C, .plain .rr_D, .plain .rr_E, .plain .rr_H,
   .plain .rr_L, .plain .rr_atHL, .plain .rr_A, .plain .sla_B, .plain .sla_C, .plain .sla_D, .plain .sla_E,
   .plain .sla_H, .plain .sla_L, .plain .sla_atHL, .plain .sla_A, .plain .sra_B, .plain .sra_C, .plain .sra_D,
   .plain .sra_E, .plain .sra_H, .plain .sra_L, .plain .sra_atHL, .plain .sra_A, .plain .sll_B, .plain .sll_C,
   .plain .sll_D, .plain .sll_E, .plain .sll_H, .plain .sll_L, .plain .sll_atHL, .plain .sll_A, .plain .srl_B,
   .plain .srl_C, .plain .srl_D, .plain .srl_E, .plain .srl_H, .plain .srl_L, .plain .srl_atHL, .plain .srl_A]

/-- The CB page (rule R169), opcodes 40 to 7F. -/
def cbPage1 : List (Row Instr) :=
  [
   .plain .bit_0_B, .plain .bit_0_C, .plain .bit_0_D, .plain .bit_0_E, .plain .bit_0_H, .plain .bit_0_L,
   .plain .bit_0_atHL, .plain .bit_0_A, .plain .bit_1_B, .plain .bit_1_C, .plain .bit_1_D, .plain .bit_1_E,
   .plain .bit_1_H, .plain .bit_1_L, .plain .bit_1_atHL, .plain .bit_1_A, .plain .bit_2_B, .plain .bit_2_C,
   .plain .bit_2_D, .plain .bit_2_E, .plain .bit_2_H, .plain .bit_2_L, .plain .bit_2_atHL, .plain .bit_2_A,
   .plain .bit_3_B, .plain .bit_3_C, .plain .bit_3_D, .plain .bit_3_E, .plain .bit_3_H, .plain .bit_3_L,
   .plain .bit_3_atHL, .plain .bit_3_A, .plain .bit_4_B, .plain .bit_4_C, .plain .bit_4_D, .plain .bit_4_E,
   .plain .bit_4_H, .plain .bit_4_L, .plain .bit_4_atHL, .plain .bit_4_A, .plain .bit_5_B, .plain .bit_5_C,
   .plain .bit_5_D, .plain .bit_5_E, .plain .bit_5_H, .plain .bit_5_L, .plain .bit_5_atHL, .plain .bit_5_A,
   .plain .bit_6_B, .plain .bit_6_C, .plain .bit_6_D, .plain .bit_6_E, .plain .bit_6_H, .plain .bit_6_L,
   .plain .bit_6_atHL, .plain .bit_6_A, .plain .bit_7_B, .plain .bit_7_C, .plain .bit_7_D, .plain .bit_7_E,
   .plain .bit_7_H, .plain .bit_7_L, .plain .bit_7_atHL, .plain .bit_7_A]

/-- The CB page (rule R169), opcodes 80 to BF. -/
def cbPage2 : List (Row Instr) :=
  [
   .plain .res_0_B, .plain .res_0_C, .plain .res_0_D, .plain .res_0_E, .plain .res_0_H, .plain .res_0_L,
   .plain .res_0_atHL, .plain .res_0_A, .plain .res_1_B, .plain .res_1_C, .plain .res_1_D, .plain .res_1_E,
   .plain .res_1_H, .plain .res_1_L, .plain .res_1_atHL, .plain .res_1_A, .plain .res_2_B, .plain .res_2_C,
   .plain .res_2_D, .plain .res_2_E, .plain .res_2_H, .plain .res_2_L, .plain .res_2_atHL, .plain .res_2_A,
   .plain .res_3_B, .plain .res_3_C, .plain .res_3_D, .plain .res_3_E, .plain .res_3_H, .plain .res_3_L,
   .plain .res_3_atHL, .plain .res_3_A, .plain .res_4_B, .plain .res_4_C, .plain .res_4_D, .plain .res_4_E,
   .plain .res_4_H, .plain .res_4_L, .plain .res_4_atHL, .plain .res_4_A, .plain .res_5_B, .plain .res_5_C,
   .plain .res_5_D, .plain .res_5_E, .plain .res_5_H, .plain .res_5_L, .plain .res_5_atHL, .plain .res_5_A,
   .plain .res_6_B, .plain .res_6_C, .plain .res_6_D, .plain .res_6_E, .plain .res_6_H, .plain .res_6_L,
   .plain .res_6_atHL, .plain .res_6_A, .plain .res_7_B, .plain .res_7_C, .plain .res_7_D, .plain .res_7_E,
   .plain .res_7_H, .plain .res_7_L, .plain .res_7_atHL, .plain .res_7_A]

/-- The CB page (rule R169), opcodes C0 to FF. -/
def cbPage3 : List (Row Instr) :=
  [
   .plain .set_0_B, .plain .set_0_C, .plain .set_0_D, .plain .set_0_E, .plain .set_0_H, .plain .set_0_L,
   .plain .set_0_atHL, .plain .set_0_A, .plain .set_1_B, .plain .set_1_C, .plain .set_1_D, .plain .set_1_E,
   .plain .set_1_H, .plain .set_1_L, .plain .set_1_atHL, .plain .set_1_A, .plain .set_2_B, .plain .set_2_C,
   .plain .set_2_D, .plain .set_2_E, .plain .set_2_H, .plain .set_2_L, .plain .set_2_atHL, .plain .set_2_A,
   .plain .set_3_B, .plain .set_3_C, .plain .set_3_D, .plain .set_3_E, .plain .set_3_H, .plain .set_3_L,
   .plain .set_3_atHL, .plain .set_3_A, .plain .set_4_B, .plain .set_4_C, .plain .set_4_D, .plain .set_4_E,
   .plain .set_4_H, .plain .set_4_L, .plain .set_4_atHL, .plain .set_4_A, .plain .set_5_B, .plain .set_5_C,
   .plain .set_5_D, .plain .set_5_E, .plain .set_5_H, .plain .set_5_L, .plain .set_5_atHL, .plain .set_5_A,
   .plain .set_6_B, .plain .set_6_C, .plain .set_6_D, .plain .set_6_E, .plain .set_6_H, .plain .set_6_L,
   .plain .set_6_atHL, .plain .set_6_A, .plain .set_7_B, .plain .set_7_C, .plain .set_7_D, .plain .set_7_E,
   .plain .set_7_H, .plain .set_7_L, .plain .set_7_atHL, .plain .set_7_A]

/-- The CB page (rule R169). -/
def cbPage : List (Row Instr) := cbPage0 ++ cbPage1 ++ cbPage2 ++ cbPage3

/-- The ED page (rule R170), opcodes 00 to 3F. -/
def edPage0 : List (Row Instr) :=
  [
   .plain (.edNop 0x00), .plain (.edNop 0x01), .plain (.edNop 0x02), .plain (.edNop 0x03), .plain (.edNop 0x04),
   .plain (.edNop 0x05), .plain (.edNop 0x06), .plain (.edNop 0x07), .plain (.edNop 0x08), .plain (.edNop 0x09),
   .plain (.edNop 0x0A), .plain (.edNop 0x0B), .plain (.edNop 0x0C), .plain (.edNop 0x0D), .plain (.edNop 0x0E),
   .plain (.edNop 0x0F), .plain (.edNop 0x10), .plain (.edNop 0x11), .plain (.edNop 0x12), .plain (.edNop 0x13),
   .plain (.edNop 0x14), .plain (.edNop 0x15), .plain (.edNop 0x16), .plain (.edNop 0x17), .plain (.edNop 0x18),
   .plain (.edNop 0x19), .plain (.edNop 0x1A), .plain (.edNop 0x1B), .plain (.edNop 0x1C), .plain (.edNop 0x1D),
   .plain (.edNop 0x1E), .plain (.edNop 0x1F), .plain (.edNop 0x20), .plain (.edNop 0x21), .plain (.edNop 0x22),
   .plain (.edNop 0x23), .plain (.edNop 0x24), .plain (.edNop 0x25), .plain (.edNop 0x26), .plain (.edNop 0x27),
   .plain (.edNop 0x28), .plain (.edNop 0x29), .plain (.edNop 0x2A), .plain (.edNop 0x2B), .plain (.edNop 0x2C),
   .plain (.edNop 0x2D), .plain (.edNop 0x2E), .plain (.edNop 0x2F), .plain (.edNop 0x30), .plain (.edNop 0x31),
   .plain (.edNop 0x32), .plain (.edNop 0x33), .plain (.edNop 0x34), .plain (.edNop 0x35), .plain (.edNop 0x36),
   .plain (.edNop 0x37), .plain (.edNop 0x38), .plain (.edNop 0x39), .plain (.edNop 0x3A), .plain (.edNop 0x3B),
   .plain (.edNop 0x3C), .plain (.edNop 0x3D), .plain (.edNop 0x3E), .plain (.edNop 0x3F)]

/-- The ED page (rule R170), opcodes 40 to 7F. -/
def edPage1 : List (Row Instr) :=
  [
   .plain .in_B_atC, .plain .out_atC_B, .plain .sbc_HL_BC, .imm16 .ld_atnn_BC, .plain (.neg 0), .plain (.retn 0),
   .plain (.im_0 false), .plain .ld_I_A, .plain .in_C_atC, .plain .out_atC_C, .plain .adc_HL_BC, .imm16 .ld_BC_atnn,
   .plain (.neg 1), .plain .reti, .plain (.im_0_1 false), .plain .ld_R_A, .plain .in_D_atC, .plain .out_atC_D,
   .plain .sbc_HL_DE, .imm16 .ld_atnn_DE, .plain (.neg 2), .plain (.retn 2), .plain (.im_1 false), .plain .ld_A_I,
   .plain .in_E_atC, .plain .out_atC_E, .plain .adc_HL_DE, .imm16 .ld_DE_atnn, .plain (.neg 3), .plain (.retn 3),
   .plain (.im_2 false), .plain .ld_A_R, .plain .in_H_atC, .plain .out_atC_H, .plain .sbc_HL_HL,
   .imm16 .ld_atnn_HL_ed, .plain (.neg 4), .plain (.retn 4), .plain (.im_0 true), .plain .rrd, .plain .in_L_atC,
   .plain .out_atC_L, .plain .adc_HL_HL, .imm16 .ld_HL_atnn_ed, .plain (.neg 5), .plain (.retn 5),
   .plain (.im_0_1 true), .plain .rld, .plain .in_F_atC, .plain .out_atC_0, .plain .sbc_HL_SP, .imm16 .ld_atnn_SP,
   .plain (.neg 6), .plain (.retn 6), .plain (.im_1 true), .plain (.edNop 0x77), .plain .in_A_atC, .plain .out_atC_A,
   .plain .adc_HL_SP, .imm16 .ld_SP_atnn, .plain (.neg 7), .plain (.retn 7), .plain (.im_2 true), .plain (.edNop 0x7F)]

/-- The ED page (rule R170), opcodes 80 to BF. -/
def edPage2 : List (Row Instr) :=
  [
   .plain (.edNop 0x80), .plain (.edNop 0x81), .plain (.edNop 0x82), .plain (.edNop 0x83), .plain (.edNop 0x84),
   .plain (.edNop 0x85), .plain (.edNop 0x86), .plain (.edNop 0x87), .plain (.edNop 0x88), .plain (.edNop 0x89),
   .plain (.edNop 0x8A), .plain (.edNop 0x8B), .plain (.edNop 0x8C), .plain (.edNop 0x8D), .plain (.edNop 0x8E),
   .plain (.edNop 0x8F), .plain (.edNop 0x90), .plain (.edNop 0x91), .plain (.edNop 0x92), .plain (.edNop 0x93),
   .plain (.edNop 0x94), .plain (.edNop 0x95), .plain (.edNop 0x96), .plain (.edNop 0x97), .plain (.edNop 0x98),
   .plain (.edNop 0x99), .plain (.edNop 0x9A), .plain (.edNop 0x9B), .plain (.edNop 0x9C), .plain (.edNop 0x9D),
   .plain (.edNop 0x9E), .plain (.edNop 0x9F), .plain .ldi, .plain .cpi, .plain .ini, .plain .outi,
   .plain (.edNop 0xA4), .plain (.edNop 0xA5), .plain (.edNop 0xA6), .plain (.edNop 0xA7), .plain .ldd, .plain .cpd,
   .plain .ind, .plain .outd, .plain (.edNop 0xAC), .plain (.edNop 0xAD), .plain (.edNop 0xAE), .plain (.edNop 0xAF),
   .plain .ldir, .plain .cpir, .plain .inir, .plain .otir, .plain (.edNop 0xB4), .plain (.edNop 0xB5),
   .plain (.edNop 0xB6), .plain (.edNop 0xB7), .plain .lddr, .plain .cpdr, .plain .indr, .plain .otdr,
   .plain (.edNop 0xBC), .plain (.edNop 0xBD), .plain (.edNop 0xBE), .plain (.edNop 0xBF)]

/-- The ED page (rule R170), opcodes C0 to FF. -/
def edPage3 : List (Row Instr) :=
  [
   .plain (.edNop 0xC0), .plain (.edNop 0xC1), .plain (.edNop 0xC2), .plain (.edNop 0xC3), .plain (.edNop 0xC4),
   .plain (.edNop 0xC5), .plain (.edNop 0xC6), .plain (.edNop 0xC7), .plain (.edNop 0xC8), .plain (.edNop 0xC9),
   .plain (.edNop 0xCA), .plain (.edNop 0xCB), .plain (.edNop 0xCC), .plain (.edNop 0xCD), .plain (.edNop 0xCE),
   .plain (.edNop 0xCF), .plain (.edNop 0xD0), .plain (.edNop 0xD1), .plain (.edNop 0xD2), .plain (.edNop 0xD3),
   .plain (.edNop 0xD4), .plain (.edNop 0xD5), .plain (.edNop 0xD6), .plain (.edNop 0xD7), .plain (.edNop 0xD8),
   .plain (.edNop 0xD9), .plain (.edNop 0xDA), .plain (.edNop 0xDB), .plain (.edNop 0xDC), .plain (.edNop 0xDD),
   .plain (.edNop 0xDE), .plain (.edNop 0xDF), .plain (.edNop 0xE0), .plain (.edNop 0xE1), .plain (.edNop 0xE2),
   .plain (.edNop 0xE3), .plain (.edNop 0xE4), .plain (.edNop 0xE5), .plain (.edNop 0xE6), .plain (.edNop 0xE7),
   .plain (.edNop 0xE8), .plain (.edNop 0xE9), .plain (.edNop 0xEA), .plain (.edNop 0xEB), .plain (.edNop 0xEC),
   .plain (.edNop 0xED), .plain (.edNop 0xEE), .plain (.edNop 0xEF), .plain (.edNop 0xF0), .plain (.edNop 0xF1),
   .plain (.edNop 0xF2), .plain (.edNop 0xF3), .plain (.edNop 0xF4), .plain (.edNop 0xF5), .plain (.edNop 0xF6),
   .plain (.edNop 0xF7), .plain (.edNop 0xF8), .plain (.edNop 0xF9), .plain (.edNop 0xFA), .plain (.edNop 0xFB),
   .plain (.edNop 0xFC), .plain (.edNop 0xFD), .plain (.edNop 0xFE), .plain (.edNop 0xFF)]

/-- The ED page (rule R170). -/
def edPage : List (Row Instr) := edPage0 ++ edPage1 ++ edPage2 ++ edPage3

/-- The opcodes after DD (rules R171 to R173), opcodes 00 to 3F. -/
def ixPage0 : List (Row Instr) :=
  [
   .dropped .ddIgnored_NOP, .dropped .ddIgnored_LD_BC_nn, .dropped .ddIgnored_LD_atBC_A, .dropped .ddIgnored_INC_BC,
   .dropped .ddIgnored_INC_B, .dropped .ddIgnored_DEC_B, .dropped .ddIgnored_LD_B_n, .dropped .ddIgnored_RLCA,
   .dropped .ddIgnored_EX_AF_AF, .plain .add_IX_BC, .dropped .ddIgnored_LD_A_atBC, .dropped .ddIgnored_DEC_BC,
   .dropped .ddIgnored_INC_C, .dropped .ddIgnored_DEC_C, .dropped .ddIgnored_LD_C_n, .dropped .ddIgnored_RRCA,
   .dropped .ddIgnored_DJNZ_e, .dropped .ddIgnored_LD_DE_nn, .dropped .ddIgnored_LD_atDE_A,
   .dropped .ddIgnored_INC_DE, .dropped .ddIgnored_INC_D, .dropped .ddIgnored_DEC_D, .dropped .ddIgnored_LD_D_n,
   .dropped .ddIgnored_RLA, .dropped .ddIgnored_JR_e, .plain .add_IX_DE, .dropped .ddIgnored_LD_A_atDE,
   .dropped .ddIgnored_DEC_DE, .dropped .ddIgnored_INC_E, .dropped .ddIgnored_DEC_E, .dropped .ddIgnored_LD_E_n,
   .dropped .ddIgnored_RRA, .dropped .ddIgnored_JR_NZ_e, .imm16 .ld_IX_nn, .imm16 .ld_atnn_IX, .plain .inc_IX,
   .plain .inc_IXH, .plain .dec_IXH, .imm8 .ld_IXH_n, .dropped .ddIgnored_DAA, .dropped .ddIgnored_JR_Z_e,
   .plain .add_IX_IX, .imm16 .ld_IX_atnn, .plain .dec_IX, .plain .inc_IXL, .plain .dec_IXL, .imm8 .ld_IXL_n,
   .dropped .ddIgnored_CPL, .dropped .ddIgnored_JR_NC_e, .dropped .ddIgnored_LD_SP_nn, .dropped .ddIgnored_LD_atnn_A,
   .dropped .ddIgnored_INC_SP, .imm8 .inc_atIXd, .imm8 .dec_atIXd, .imm8x2 .ld_atIXd_n, .dropped .ddIgnored_SCF,
   .dropped .ddIgnored_JR_C_e, .plain .add_IX_SP, .dropped .ddIgnored_LD_A_atnn, .dropped .ddIgnored_DEC_SP,
   .dropped .ddIgnored_INC_A, .dropped .ddIgnored_DEC_A, .dropped .ddIgnored_LD_A_n, .dropped .ddIgnored_CCF]

/-- The opcodes after DD (rules R171 to R173), opcodes 40 to 7F. -/
def ixPage1 : List (Row Instr) :=
  [
   .dropped .ddIgnored_LD_B_B, .dropped .ddIgnored_LD_B_C, .dropped .ddIgnored_LD_B_D, .dropped .ddIgnored_LD_B_E,
   .plain .ld_B_IXH, .plain .ld_B_IXL, .imm8 .ld_B_atIXd, .dropped .ddIgnored_LD_B_A, .dropped .ddIgnored_LD_C_B,
   .dropped .ddIgnored_LD_C_C, .dropped .ddIgnored_LD_C_D, .dropped .ddIgnored_LD_C_E, .plain .ld_C_IXH,
   .plain .ld_C_IXL, .imm8 .ld_C_atIXd, .dropped .ddIgnored_LD_C_A, .dropped .ddIgnored_LD_D_B,
   .dropped .ddIgnored_LD_D_C, .dropped .ddIgnored_LD_D_D, .dropped .ddIgnored_LD_D_E, .plain .ld_D_IXH,
   .plain .ld_D_IXL, .imm8 .ld_D_atIXd, .dropped .ddIgnored_LD_D_A, .dropped .ddIgnored_LD_E_B,
   .dropped .ddIgnored_LD_E_C, .dropped .ddIgnored_LD_E_D, .dropped .ddIgnored_LD_E_E, .plain .ld_E_IXH,
   .plain .ld_E_IXL, .imm8 .ld_E_atIXd, .dropped .ddIgnored_LD_E_A, .plain .ld_IXH_B, .plain .ld_IXH_C,
   .plain .ld_IXH_D, .plain .ld_IXH_E, .plain .ld_IXH_IXH, .plain .ld_IXH_IXL, .imm8 .ld_H_atIXd, .plain .ld_IXH_A,
   .plain .ld_IXL_B, .plain .ld_IXL_C, .plain .ld_IXL_D, .plain .ld_IXL_E, .plain .ld_IXL_IXH, .plain .ld_IXL_IXL,
   .imm8 .ld_L_atIXd, .plain .ld_IXL_A, .imm8 .ld_atIXd_B, .imm8 .ld_atIXd_C, .imm8 .ld_atIXd_D, .imm8 .ld_atIXd_E,
   .imm8 .ld_atIXd_H, .imm8 .ld_atIXd_L, .dropped .ddIgnored_HALT, .imm8 .ld_atIXd_A, .dropped .ddIgnored_LD_A_B,
   .dropped .ddIgnored_LD_A_C, .dropped .ddIgnored_LD_A_D, .dropped .ddIgnored_LD_A_E, .plain .ld_A_IXH,
   .plain .ld_A_IXL, .imm8 .ld_A_atIXd, .dropped .ddIgnored_LD_A_A]

/-- The opcodes after DD (rules R171 to R173), opcodes 80 to BF. -/
def ixPage2 : List (Row Instr) :=
  [
   .dropped .ddIgnored_ADD_A_B, .dropped .ddIgnored_ADD_A_C, .dropped .ddIgnored_ADD_A_D,
   .dropped .ddIgnored_ADD_A_E, .plain .add_A_IXH, .plain .add_A_IXL, .imm8 .add_A_atIXd,
   .dropped .ddIgnored_ADD_A_A, .dropped .ddIgnored_ADC_A_B, .dropped .ddIgnored_ADC_A_C,
   .dropped .ddIgnored_ADC_A_D, .dropped .ddIgnored_ADC_A_E, .plain .adc_A_IXH, .plain .adc_A_IXL,
   .imm8 .adc_A_atIXd, .dropped .ddIgnored_ADC_A_A, .dropped .ddIgnored_SUB_B, .dropped .ddIgnored_SUB_C,
   .dropped .ddIgnored_SUB_D, .dropped .ddIgnored_SUB_E, .plain .sub_IXH, .plain .sub_IXL, .imm8 .sub_atIXd,
   .dropped .ddIgnored_SUB_A, .dropped .ddIgnored_SBC_A_B, .dropped .ddIgnored_SBC_A_C, .dropped .ddIgnored_SBC_A_D,
   .dropped .ddIgnored_SBC_A_E, .plain .sbc_A_IXH, .plain .sbc_A_IXL, .imm8 .sbc_A_atIXd,
   .dropped .ddIgnored_SBC_A_A, .dropped .ddIgnored_AND_B, .dropped .ddIgnored_AND_C, .dropped .ddIgnored_AND_D,
   .dropped .ddIgnored_AND_E, .plain .and_IXH, .plain .and_IXL, .imm8 .and_atIXd, .dropped .ddIgnored_AND_A,
   .dropped .ddIgnored_XOR_B, .dropped .ddIgnored_XOR_C, .dropped .ddIgnored_XOR_D, .dropped .ddIgnored_XOR_E,
   .plain .xor_IXH, .plain .xor_IXL, .imm8 .xor_atIXd, .dropped .ddIgnored_XOR_A, .dropped .ddIgnored_OR_B,
   .dropped .ddIgnored_OR_C, .dropped .ddIgnored_OR_D, .dropped .ddIgnored_OR_E, .plain .or_IXH, .plain .or_IXL,
   .imm8 .or_atIXd, .dropped .ddIgnored_OR_A, .dropped .ddIgnored_CP_B, .dropped .ddIgnored_CP_C,
   .dropped .ddIgnored_CP_D, .dropped .ddIgnored_CP_E, .plain .cp_IXH, .plain .cp_IXL, .imm8 .cp_atIXd,
   .dropped .ddIgnored_CP_A]

/-- The opcodes after DD (rules R171 to R173), opcodes C0 to FF. -/
def ixPage3 : List (Row Instr) :=
  [
   .dropped .ddIgnored_RET_NZ, .dropped .ddIgnored_POP_BC, .dropped .ddIgnored_JP_NZ_nn, .dropped .ddIgnored_JP_nn,
   .dropped .ddIgnored_CALL_NZ_nn, .dropped .ddIgnored_PUSH_BC, .dropped .ddIgnored_ADD_A_n,
   .dropped .ddIgnored_RST_00H, .dropped .ddIgnored_RET_Z, .dropped .ddIgnored_RET, .dropped .ddIgnored_JP_Z_nn,
   .page (.xcb .ix), .dropped .ddIgnored_CALL_Z_nn, .dropped .ddIgnored_CALL_nn, .dropped .ddIgnored_ADC_A_n,
   .dropped .ddIgnored_RST_08H, .dropped .ddIgnored_RET_NC, .dropped .ddIgnored_POP_DE, .dropped .ddIgnored_JP_NC_nn,
   .dropped .ddIgnored_OUT_atn_A, .dropped .ddIgnored_CALL_NC_nn, .dropped .ddIgnored_PUSH_DE,
   .dropped .ddIgnored_SUB_n, .dropped .ddIgnored_RST_10H, .dropped .ddIgnored_RET_C, .dropped .ddIgnored_EXX,
   .dropped .ddIgnored_JP_C_nn, .dropped .ddIgnored_IN_A_atn, .dropped .ddIgnored_CALL_C_nn,
   .dropped .ddIgnored_prefix_DD, .dropped .ddIgnored_SBC_A_n, .dropped .ddIgnored_RST_18H,
   .dropped .ddIgnored_RET_PO, .plain .pop_IX, .dropped .ddIgnored_JP_PO_nn, .plain .ex_atSP_IX,
   .dropped .ddIgnored_CALL_PO_nn, .plain .push_IX, .dropped .ddIgnored_AND_n, .dropped .ddIgnored_RST_20H,
   .dropped .ddIgnored_RET_PE, .plain .jp_atIX, .dropped .ddIgnored_JP_PE_nn, .dropped .ddIgnored_EX_DE_HL,
   .dropped .ddIgnored_CALL_PE_nn, .dropped .ddIgnored_ED_page, .dropped .ddIgnored_XOR_n,
   .dropped .ddIgnored_RST_28H, .dropped .ddIgnored_RET_P, .dropped .ddIgnored_POP_AF, .dropped .ddIgnored_JP_P_nn,
   .dropped .ddIgnored_DI, .dropped .ddIgnored_CALL_P_nn, .dropped .ddIgnored_PUSH_AF, .dropped .ddIgnored_OR_n,
   .dropped .ddIgnored_RST_30H, .dropped .ddIgnored_RET_M, .plain .ld_SP_IX, .dropped .ddIgnored_JP_M_nn,
   .dropped .ddIgnored_EI, .dropped .ddIgnored_CALL_M_nn, .dropped .ddIgnored_prefix_FD, .dropped .ddIgnored_CP_n,
   .dropped .ddIgnored_RST_38H]

/-- The opcodes after DD (rules R171 to R173). -/
def ixPage : List (Row Instr) := ixPage0 ++ ixPage1 ++ ixPage2 ++ ixPage3

/-- The opcodes after FD (rules R171 to R173), opcodes 00 to 3F. -/
def iyPage0 : List (Row Instr) :=
  [
   .dropped .fdIgnored_NOP, .dropped .fdIgnored_LD_BC_nn, .dropped .fdIgnored_LD_atBC_A, .dropped .fdIgnored_INC_BC,
   .dropped .fdIgnored_INC_B, .dropped .fdIgnored_DEC_B, .dropped .fdIgnored_LD_B_n, .dropped .fdIgnored_RLCA,
   .dropped .fdIgnored_EX_AF_AF, .plain .add_IY_BC, .dropped .fdIgnored_LD_A_atBC, .dropped .fdIgnored_DEC_BC,
   .dropped .fdIgnored_INC_C, .dropped .fdIgnored_DEC_C, .dropped .fdIgnored_LD_C_n, .dropped .fdIgnored_RRCA,
   .dropped .fdIgnored_DJNZ_e, .dropped .fdIgnored_LD_DE_nn, .dropped .fdIgnored_LD_atDE_A,
   .dropped .fdIgnored_INC_DE, .dropped .fdIgnored_INC_D, .dropped .fdIgnored_DEC_D, .dropped .fdIgnored_LD_D_n,
   .dropped .fdIgnored_RLA, .dropped .fdIgnored_JR_e, .plain .add_IY_DE, .dropped .fdIgnored_LD_A_atDE,
   .dropped .fdIgnored_DEC_DE, .dropped .fdIgnored_INC_E, .dropped .fdIgnored_DEC_E, .dropped .fdIgnored_LD_E_n,
   .dropped .fdIgnored_RRA, .dropped .fdIgnored_JR_NZ_e, .imm16 .ld_IY_nn, .imm16 .ld_atnn_IY, .plain .inc_IY,
   .plain .inc_IYH, .plain .dec_IYH, .imm8 .ld_IYH_n, .dropped .fdIgnored_DAA, .dropped .fdIgnored_JR_Z_e,
   .plain .add_IY_IY, .imm16 .ld_IY_atnn, .plain .dec_IY, .plain .inc_IYL, .plain .dec_IYL, .imm8 .ld_IYL_n,
   .dropped .fdIgnored_CPL, .dropped .fdIgnored_JR_NC_e, .dropped .fdIgnored_LD_SP_nn, .dropped .fdIgnored_LD_atnn_A,
   .dropped .fdIgnored_INC_SP, .imm8 .inc_atIYd, .imm8 .dec_atIYd, .imm8x2 .ld_atIYd_n, .dropped .fdIgnored_SCF,
   .dropped .fdIgnored_JR_C_e, .plain .add_IY_SP, .dropped .fdIgnored_LD_A_atnn, .dropped .fdIgnored_DEC_SP,
   .dropped .fdIgnored_INC_A, .dropped .fdIgnored_DEC_A, .dropped .fdIgnored_LD_A_n, .dropped .fdIgnored_CCF]

/-- The opcodes after FD (rules R171 to R173), opcodes 40 to 7F. -/
def iyPage1 : List (Row Instr) :=
  [
   .dropped .fdIgnored_LD_B_B, .dropped .fdIgnored_LD_B_C, .dropped .fdIgnored_LD_B_D, .dropped .fdIgnored_LD_B_E,
   .plain .ld_B_IYH, .plain .ld_B_IYL, .imm8 .ld_B_atIYd, .dropped .fdIgnored_LD_B_A, .dropped .fdIgnored_LD_C_B,
   .dropped .fdIgnored_LD_C_C, .dropped .fdIgnored_LD_C_D, .dropped .fdIgnored_LD_C_E, .plain .ld_C_IYH,
   .plain .ld_C_IYL, .imm8 .ld_C_atIYd, .dropped .fdIgnored_LD_C_A, .dropped .fdIgnored_LD_D_B,
   .dropped .fdIgnored_LD_D_C, .dropped .fdIgnored_LD_D_D, .dropped .fdIgnored_LD_D_E, .plain .ld_D_IYH,
   .plain .ld_D_IYL, .imm8 .ld_D_atIYd, .dropped .fdIgnored_LD_D_A, .dropped .fdIgnored_LD_E_B,
   .dropped .fdIgnored_LD_E_C, .dropped .fdIgnored_LD_E_D, .dropped .fdIgnored_LD_E_E, .plain .ld_E_IYH,
   .plain .ld_E_IYL, .imm8 .ld_E_atIYd, .dropped .fdIgnored_LD_E_A, .plain .ld_IYH_B, .plain .ld_IYH_C,
   .plain .ld_IYH_D, .plain .ld_IYH_E, .plain .ld_IYH_IYH, .plain .ld_IYH_IYL, .imm8 .ld_H_atIYd, .plain .ld_IYH_A,
   .plain .ld_IYL_B, .plain .ld_IYL_C, .plain .ld_IYL_D, .plain .ld_IYL_E, .plain .ld_IYL_IYH, .plain .ld_IYL_IYL,
   .imm8 .ld_L_atIYd, .plain .ld_IYL_A, .imm8 .ld_atIYd_B, .imm8 .ld_atIYd_C, .imm8 .ld_atIYd_D, .imm8 .ld_atIYd_E,
   .imm8 .ld_atIYd_H, .imm8 .ld_atIYd_L, .dropped .fdIgnored_HALT, .imm8 .ld_atIYd_A, .dropped .fdIgnored_LD_A_B,
   .dropped .fdIgnored_LD_A_C, .dropped .fdIgnored_LD_A_D, .dropped .fdIgnored_LD_A_E, .plain .ld_A_IYH,
   .plain .ld_A_IYL, .imm8 .ld_A_atIYd, .dropped .fdIgnored_LD_A_A]

/-- The opcodes after FD (rules R171 to R173), opcodes 80 to BF. -/
def iyPage2 : List (Row Instr) :=
  [
   .dropped .fdIgnored_ADD_A_B, .dropped .fdIgnored_ADD_A_C, .dropped .fdIgnored_ADD_A_D,
   .dropped .fdIgnored_ADD_A_E, .plain .add_A_IYH, .plain .add_A_IYL, .imm8 .add_A_atIYd,
   .dropped .fdIgnored_ADD_A_A, .dropped .fdIgnored_ADC_A_B, .dropped .fdIgnored_ADC_A_C,
   .dropped .fdIgnored_ADC_A_D, .dropped .fdIgnored_ADC_A_E, .plain .adc_A_IYH, .plain .adc_A_IYL,
   .imm8 .adc_A_atIYd, .dropped .fdIgnored_ADC_A_A, .dropped .fdIgnored_SUB_B, .dropped .fdIgnored_SUB_C,
   .dropped .fdIgnored_SUB_D, .dropped .fdIgnored_SUB_E, .plain .sub_IYH, .plain .sub_IYL, .imm8 .sub_atIYd,
   .dropped .fdIgnored_SUB_A, .dropped .fdIgnored_SBC_A_B, .dropped .fdIgnored_SBC_A_C, .dropped .fdIgnored_SBC_A_D,
   .dropped .fdIgnored_SBC_A_E, .plain .sbc_A_IYH, .plain .sbc_A_IYL, .imm8 .sbc_A_atIYd,
   .dropped .fdIgnored_SBC_A_A, .dropped .fdIgnored_AND_B, .dropped .fdIgnored_AND_C, .dropped .fdIgnored_AND_D,
   .dropped .fdIgnored_AND_E, .plain .and_IYH, .plain .and_IYL, .imm8 .and_atIYd, .dropped .fdIgnored_AND_A,
   .dropped .fdIgnored_XOR_B, .dropped .fdIgnored_XOR_C, .dropped .fdIgnored_XOR_D, .dropped .fdIgnored_XOR_E,
   .plain .xor_IYH, .plain .xor_IYL, .imm8 .xor_atIYd, .dropped .fdIgnored_XOR_A, .dropped .fdIgnored_OR_B,
   .dropped .fdIgnored_OR_C, .dropped .fdIgnored_OR_D, .dropped .fdIgnored_OR_E, .plain .or_IYH, .plain .or_IYL,
   .imm8 .or_atIYd, .dropped .fdIgnored_OR_A, .dropped .fdIgnored_CP_B, .dropped .fdIgnored_CP_C,
   .dropped .fdIgnored_CP_D, .dropped .fdIgnored_CP_E, .plain .cp_IYH, .plain .cp_IYL, .imm8 .cp_atIYd,
   .dropped .fdIgnored_CP_A]

/-- The opcodes after FD (rules R171 to R173), opcodes C0 to FF. -/
def iyPage3 : List (Row Instr) :=
  [
   .dropped .fdIgnored_RET_NZ, .dropped .fdIgnored_POP_BC, .dropped .fdIgnored_JP_NZ_nn, .dropped .fdIgnored_JP_nn,
   .dropped .fdIgnored_CALL_NZ_nn, .dropped .fdIgnored_PUSH_BC, .dropped .fdIgnored_ADD_A_n,
   .dropped .fdIgnored_RST_00H, .dropped .fdIgnored_RET_Z, .dropped .fdIgnored_RET, .dropped .fdIgnored_JP_Z_nn,
   .page (.xcb .iy), .dropped .fdIgnored_CALL_Z_nn, .dropped .fdIgnored_CALL_nn, .dropped .fdIgnored_ADC_A_n,
   .dropped .fdIgnored_RST_08H, .dropped .fdIgnored_RET_NC, .dropped .fdIgnored_POP_DE, .dropped .fdIgnored_JP_NC_nn,
   .dropped .fdIgnored_OUT_atn_A, .dropped .fdIgnored_CALL_NC_nn, .dropped .fdIgnored_PUSH_DE,
   .dropped .fdIgnored_SUB_n, .dropped .fdIgnored_RST_10H, .dropped .fdIgnored_RET_C, .dropped .fdIgnored_EXX,
   .dropped .fdIgnored_JP_C_nn, .dropped .fdIgnored_IN_A_atn, .dropped .fdIgnored_CALL_C_nn,
   .dropped .fdIgnored_prefix_DD, .dropped .fdIgnored_SBC_A_n, .dropped .fdIgnored_RST_18H,
   .dropped .fdIgnored_RET_PO, .plain .pop_IY, .dropped .fdIgnored_JP_PO_nn, .plain .ex_atSP_IY,
   .dropped .fdIgnored_CALL_PO_nn, .plain .push_IY, .dropped .fdIgnored_AND_n, .dropped .fdIgnored_RST_20H,
   .dropped .fdIgnored_RET_PE, .plain .jp_atIY, .dropped .fdIgnored_JP_PE_nn, .dropped .fdIgnored_EX_DE_HL,
   .dropped .fdIgnored_CALL_PE_nn, .dropped .fdIgnored_ED_page, .dropped .fdIgnored_XOR_n,
   .dropped .fdIgnored_RST_28H, .dropped .fdIgnored_RET_P, .dropped .fdIgnored_POP_AF, .dropped .fdIgnored_JP_P_nn,
   .dropped .fdIgnored_DI, .dropped .fdIgnored_CALL_P_nn, .dropped .fdIgnored_PUSH_AF, .dropped .fdIgnored_OR_n,
   .dropped .fdIgnored_RST_30H, .dropped .fdIgnored_RET_M, .plain .ld_SP_IY, .dropped .fdIgnored_JP_M_nn,
   .dropped .fdIgnored_EI, .dropped .fdIgnored_CALL_M_nn, .dropped .fdIgnored_prefix_FD, .dropped .fdIgnored_CP_n,
   .dropped .fdIgnored_RST_38H]

/-- The opcodes after FD (rules R171 to R173). -/
def iyPage : List (Row Instr) := iyPage0 ++ iyPage1 ++ iyPage2 ++ iyPage3

/-- DD CB d op (rule R174), op 00 to 3F. -/
def ixcbPage0 : List (Byte → Instr) :=
  [
   .rlc_atIXd_B, .rlc_atIXd_C, .rlc_atIXd_D, .rlc_atIXd_E, .rlc_atIXd_H, .rlc_atIXd_L, .rlc_atIXd, .rlc_atIXd_A,
   .rrc_atIXd_B, .rrc_atIXd_C, .rrc_atIXd_D, .rrc_atIXd_E, .rrc_atIXd_H, .rrc_atIXd_L, .rrc_atIXd, .rrc_atIXd_A,
   .rl_atIXd_B, .rl_atIXd_C, .rl_atIXd_D, .rl_atIXd_E, .rl_atIXd_H, .rl_atIXd_L, .rl_atIXd, .rl_atIXd_A, .rr_atIXd_B,
   .rr_atIXd_C, .rr_atIXd_D, .rr_atIXd_E, .rr_atIXd_H, .rr_atIXd_L, .rr_atIXd, .rr_atIXd_A, .sla_atIXd_B,
   .sla_atIXd_C, .sla_atIXd_D, .sla_atIXd_E, .sla_atIXd_H, .sla_atIXd_L, .sla_atIXd, .sla_atIXd_A, .sra_atIXd_B,
   .sra_atIXd_C, .sra_atIXd_D, .sra_atIXd_E, .sra_atIXd_H, .sra_atIXd_L, .sra_atIXd, .sra_atIXd_A, .sll_atIXd_B,
   .sll_atIXd_C, .sll_atIXd_D, .sll_atIXd_E, .sll_atIXd_H, .sll_atIXd_L, .sll_atIXd, .sll_atIXd_A, .srl_atIXd_B,
   .srl_atIXd_C, .srl_atIXd_D, .srl_atIXd_E, .srl_atIXd_H, .srl_atIXd_L, .srl_atIXd, .srl_atIXd_A]

/-- DD CB d op (rule R174), op 40 to 7F. -/
def ixcbPage1 : List (Byte → Instr) :=
  [
   (.bit_0_atIXd · 0), (.bit_0_atIXd · 1), (.bit_0_atIXd · 2), (.bit_0_atIXd · 3), (.bit_0_atIXd · 4),
   (.bit_0_atIXd · 5), (.bit_0_atIXd · 6), (.bit_0_atIXd · 7), (.bit_1_atIXd · 0), (.bit_1_atIXd · 1),
   (.bit_1_atIXd · 2), (.bit_1_atIXd · 3), (.bit_1_atIXd · 4), (.bit_1_atIXd · 5), (.bit_1_atIXd · 6),
   (.bit_1_atIXd · 7), (.bit_2_atIXd · 0), (.bit_2_atIXd · 1), (.bit_2_atIXd · 2), (.bit_2_atIXd · 3),
   (.bit_2_atIXd · 4), (.bit_2_atIXd · 5), (.bit_2_atIXd · 6), (.bit_2_atIXd · 7), (.bit_3_atIXd · 0),
   (.bit_3_atIXd · 1), (.bit_3_atIXd · 2), (.bit_3_atIXd · 3), (.bit_3_atIXd · 4), (.bit_3_atIXd · 5),
   (.bit_3_atIXd · 6), (.bit_3_atIXd · 7), (.bit_4_atIXd · 0), (.bit_4_atIXd · 1), (.bit_4_atIXd · 2),
   (.bit_4_atIXd · 3), (.bit_4_atIXd · 4), (.bit_4_atIXd · 5), (.bit_4_atIXd · 6), (.bit_4_atIXd · 7),
   (.bit_5_atIXd · 0), (.bit_5_atIXd · 1), (.bit_5_atIXd · 2), (.bit_5_atIXd · 3), (.bit_5_atIXd · 4),
   (.bit_5_atIXd · 5), (.bit_5_atIXd · 6), (.bit_5_atIXd · 7), (.bit_6_atIXd · 0), (.bit_6_atIXd · 1),
   (.bit_6_atIXd · 2), (.bit_6_atIXd · 3), (.bit_6_atIXd · 4), (.bit_6_atIXd · 5), (.bit_6_atIXd · 6),
   (.bit_6_atIXd · 7), (.bit_7_atIXd · 0), (.bit_7_atIXd · 1), (.bit_7_atIXd · 2), (.bit_7_atIXd · 3),
   (.bit_7_atIXd · 4), (.bit_7_atIXd · 5), (.bit_7_atIXd · 6), (.bit_7_atIXd · 7)]

/-- DD CB d op (rule R174), op 80 to BF. -/
def ixcbPage2 : List (Byte → Instr) :=
  [
   .res_0_atIXd_B, .res_0_atIXd_C, .res_0_atIXd_D, .res_0_atIXd_E, .res_0_atIXd_H, .res_0_atIXd_L, .res_0_atIXd,
   .res_0_atIXd_A, .res_1_atIXd_B, .res_1_atIXd_C, .res_1_atIXd_D, .res_1_atIXd_E, .res_1_atIXd_H, .res_1_atIXd_L,
   .res_1_atIXd, .res_1_atIXd_A, .res_2_atIXd_B, .res_2_atIXd_C, .res_2_atIXd_D, .res_2_atIXd_E, .res_2_atIXd_H,
   .res_2_atIXd_L, .res_2_atIXd, .res_2_atIXd_A, .res_3_atIXd_B, .res_3_atIXd_C, .res_3_atIXd_D, .res_3_atIXd_E,
   .res_3_atIXd_H, .res_3_atIXd_L, .res_3_atIXd, .res_3_atIXd_A, .res_4_atIXd_B, .res_4_atIXd_C, .res_4_atIXd_D,
   .res_4_atIXd_E, .res_4_atIXd_H, .res_4_atIXd_L, .res_4_atIXd, .res_4_atIXd_A, .res_5_atIXd_B, .res_5_atIXd_C,
   .res_5_atIXd_D, .res_5_atIXd_E, .res_5_atIXd_H, .res_5_atIXd_L, .res_5_atIXd, .res_5_atIXd_A, .res_6_atIXd_B,
   .res_6_atIXd_C, .res_6_atIXd_D, .res_6_atIXd_E, .res_6_atIXd_H, .res_6_atIXd_L, .res_6_atIXd, .res_6_atIXd_A,
   .res_7_atIXd_B, .res_7_atIXd_C, .res_7_atIXd_D, .res_7_atIXd_E, .res_7_atIXd_H, .res_7_atIXd_L, .res_7_atIXd,
   .res_7_atIXd_A]

/-- DD CB d op (rule R174), op C0 to FF. -/
def ixcbPage3 : List (Byte → Instr) :=
  [
   .set_0_atIXd_B, .set_0_atIXd_C, .set_0_atIXd_D, .set_0_atIXd_E, .set_0_atIXd_H, .set_0_atIXd_L, .set_0_atIXd,
   .set_0_atIXd_A, .set_1_atIXd_B, .set_1_atIXd_C, .set_1_atIXd_D, .set_1_atIXd_E, .set_1_atIXd_H, .set_1_atIXd_L,
   .set_1_atIXd, .set_1_atIXd_A, .set_2_atIXd_B, .set_2_atIXd_C, .set_2_atIXd_D, .set_2_atIXd_E, .set_2_atIXd_H,
   .set_2_atIXd_L, .set_2_atIXd, .set_2_atIXd_A, .set_3_atIXd_B, .set_3_atIXd_C, .set_3_atIXd_D, .set_3_atIXd_E,
   .set_3_atIXd_H, .set_3_atIXd_L, .set_3_atIXd, .set_3_atIXd_A, .set_4_atIXd_B, .set_4_atIXd_C, .set_4_atIXd_D,
   .set_4_atIXd_E, .set_4_atIXd_H, .set_4_atIXd_L, .set_4_atIXd, .set_4_atIXd_A, .set_5_atIXd_B, .set_5_atIXd_C,
   .set_5_atIXd_D, .set_5_atIXd_E, .set_5_atIXd_H, .set_5_atIXd_L, .set_5_atIXd, .set_5_atIXd_A, .set_6_atIXd_B,
   .set_6_atIXd_C, .set_6_atIXd_D, .set_6_atIXd_E, .set_6_atIXd_H, .set_6_atIXd_L, .set_6_atIXd, .set_6_atIXd_A,
   .set_7_atIXd_B, .set_7_atIXd_C, .set_7_atIXd_D, .set_7_atIXd_E, .set_7_atIXd_H, .set_7_atIXd_L, .set_7_atIXd,
   .set_7_atIXd_A]

/-- DD CB d op (rule R174). -/
def ixcbPage : List (Byte → Instr) := ixcbPage0 ++ ixcbPage1 ++ ixcbPage2 ++ ixcbPage3

/-- FD CB d op (rule R174), op 00 to 3F. -/
def iycbPage0 : List (Byte → Instr) :=
  [
   .rlc_atIYd_B, .rlc_atIYd_C, .rlc_atIYd_D, .rlc_atIYd_E, .rlc_atIYd_H, .rlc_atIYd_L, .rlc_atIYd, .rlc_atIYd_A,
   .rrc_atIYd_B, .rrc_atIYd_C, .rrc_atIYd_D, .rrc_atIYd_E, .rrc_atIYd_H, .rrc_atIYd_L, .rrc_atIYd, .rrc_atIYd_A,
   .rl_atIYd_B, .rl_atIYd_C, .rl_atIYd_D, .rl_atIYd_E, .rl_atIYd_H, .rl_atIYd_L, .rl_atIYd, .rl_atIYd_A, .rr_atIYd_B,
   .rr_atIYd_C, .rr_atIYd_D, .rr_atIYd_E, .rr_atIYd_H, .rr_atIYd_L, .rr_atIYd, .rr_atIYd_A, .sla_atIYd_B,
   .sla_atIYd_C, .sla_atIYd_D, .sla_atIYd_E, .sla_atIYd_H, .sla_atIYd_L, .sla_atIYd, .sla_atIYd_A, .sra_atIYd_B,
   .sra_atIYd_C, .sra_atIYd_D, .sra_atIYd_E, .sra_atIYd_H, .sra_atIYd_L, .sra_atIYd, .sra_atIYd_A, .sll_atIYd_B,
   .sll_atIYd_C, .sll_atIYd_D, .sll_atIYd_E, .sll_atIYd_H, .sll_atIYd_L, .sll_atIYd, .sll_atIYd_A, .srl_atIYd_B,
   .srl_atIYd_C, .srl_atIYd_D, .srl_atIYd_E, .srl_atIYd_H, .srl_atIYd_L, .srl_atIYd, .srl_atIYd_A]

/-- FD CB d op (rule R174), op 40 to 7F. -/
def iycbPage1 : List (Byte → Instr) :=
  [
   (.bit_0_atIYd · 0), (.bit_0_atIYd · 1), (.bit_0_atIYd · 2), (.bit_0_atIYd · 3), (.bit_0_atIYd · 4),
   (.bit_0_atIYd · 5), (.bit_0_atIYd · 6), (.bit_0_atIYd · 7), (.bit_1_atIYd · 0), (.bit_1_atIYd · 1),
   (.bit_1_atIYd · 2), (.bit_1_atIYd · 3), (.bit_1_atIYd · 4), (.bit_1_atIYd · 5), (.bit_1_atIYd · 6),
   (.bit_1_atIYd · 7), (.bit_2_atIYd · 0), (.bit_2_atIYd · 1), (.bit_2_atIYd · 2), (.bit_2_atIYd · 3),
   (.bit_2_atIYd · 4), (.bit_2_atIYd · 5), (.bit_2_atIYd · 6), (.bit_2_atIYd · 7), (.bit_3_atIYd · 0),
   (.bit_3_atIYd · 1), (.bit_3_atIYd · 2), (.bit_3_atIYd · 3), (.bit_3_atIYd · 4), (.bit_3_atIYd · 5),
   (.bit_3_atIYd · 6), (.bit_3_atIYd · 7), (.bit_4_atIYd · 0), (.bit_4_atIYd · 1), (.bit_4_atIYd · 2),
   (.bit_4_atIYd · 3), (.bit_4_atIYd · 4), (.bit_4_atIYd · 5), (.bit_4_atIYd · 6), (.bit_4_atIYd · 7),
   (.bit_5_atIYd · 0), (.bit_5_atIYd · 1), (.bit_5_atIYd · 2), (.bit_5_atIYd · 3), (.bit_5_atIYd · 4),
   (.bit_5_atIYd · 5), (.bit_5_atIYd · 6), (.bit_5_atIYd · 7), (.bit_6_atIYd · 0), (.bit_6_atIYd · 1),
   (.bit_6_atIYd · 2), (.bit_6_atIYd · 3), (.bit_6_atIYd · 4), (.bit_6_atIYd · 5), (.bit_6_atIYd · 6),
   (.bit_6_atIYd · 7), (.bit_7_atIYd · 0), (.bit_7_atIYd · 1), (.bit_7_atIYd · 2), (.bit_7_atIYd · 3),
   (.bit_7_atIYd · 4), (.bit_7_atIYd · 5), (.bit_7_atIYd · 6), (.bit_7_atIYd · 7)]

/-- FD CB d op (rule R174), op 80 to BF. -/
def iycbPage2 : List (Byte → Instr) :=
  [
   .res_0_atIYd_B, .res_0_atIYd_C, .res_0_atIYd_D, .res_0_atIYd_E, .res_0_atIYd_H, .res_0_atIYd_L, .res_0_atIYd,
   .res_0_atIYd_A, .res_1_atIYd_B, .res_1_atIYd_C, .res_1_atIYd_D, .res_1_atIYd_E, .res_1_atIYd_H, .res_1_atIYd_L,
   .res_1_atIYd, .res_1_atIYd_A, .res_2_atIYd_B, .res_2_atIYd_C, .res_2_atIYd_D, .res_2_atIYd_E, .res_2_atIYd_H,
   .res_2_atIYd_L, .res_2_atIYd, .res_2_atIYd_A, .res_3_atIYd_B, .res_3_atIYd_C, .res_3_atIYd_D, .res_3_atIYd_E,
   .res_3_atIYd_H, .res_3_atIYd_L, .res_3_atIYd, .res_3_atIYd_A, .res_4_atIYd_B, .res_4_atIYd_C, .res_4_atIYd_D,
   .res_4_atIYd_E, .res_4_atIYd_H, .res_4_atIYd_L, .res_4_atIYd, .res_4_atIYd_A, .res_5_atIYd_B, .res_5_atIYd_C,
   .res_5_atIYd_D, .res_5_atIYd_E, .res_5_atIYd_H, .res_5_atIYd_L, .res_5_atIYd, .res_5_atIYd_A, .res_6_atIYd_B,
   .res_6_atIYd_C, .res_6_atIYd_D, .res_6_atIYd_E, .res_6_atIYd_H, .res_6_atIYd_L, .res_6_atIYd, .res_6_atIYd_A,
   .res_7_atIYd_B, .res_7_atIYd_C, .res_7_atIYd_D, .res_7_atIYd_E, .res_7_atIYd_H, .res_7_atIYd_L, .res_7_atIYd,
   .res_7_atIYd_A]

/-- FD CB d op (rule R174), op C0 to FF. -/
def iycbPage3 : List (Byte → Instr) :=
  [
   .set_0_atIYd_B, .set_0_atIYd_C, .set_0_atIYd_D, .set_0_atIYd_E, .set_0_atIYd_H, .set_0_atIYd_L, .set_0_atIYd,
   .set_0_atIYd_A, .set_1_atIYd_B, .set_1_atIYd_C, .set_1_atIYd_D, .set_1_atIYd_E, .set_1_atIYd_H, .set_1_atIYd_L,
   .set_1_atIYd, .set_1_atIYd_A, .set_2_atIYd_B, .set_2_atIYd_C, .set_2_atIYd_D, .set_2_atIYd_E, .set_2_atIYd_H,
   .set_2_atIYd_L, .set_2_atIYd, .set_2_atIYd_A, .set_3_atIYd_B, .set_3_atIYd_C, .set_3_atIYd_D, .set_3_atIYd_E,
   .set_3_atIYd_H, .set_3_atIYd_L, .set_3_atIYd, .set_3_atIYd_A, .set_4_atIYd_B, .set_4_atIYd_C, .set_4_atIYd_D,
   .set_4_atIYd_E, .set_4_atIYd_H, .set_4_atIYd_L, .set_4_atIYd, .set_4_atIYd_A, .set_5_atIYd_B, .set_5_atIYd_C,
   .set_5_atIYd_D, .set_5_atIYd_E, .set_5_atIYd_H, .set_5_atIYd_L, .set_5_atIYd, .set_5_atIYd_A, .set_6_atIYd_B,
   .set_6_atIYd_C, .set_6_atIYd_D, .set_6_atIYd_E, .set_6_atIYd_H, .set_6_atIYd_L, .set_6_atIYd, .set_6_atIYd_A,
   .set_7_atIYd_B, .set_7_atIYd_C, .set_7_atIYd_D, .set_7_atIYd_E, .set_7_atIYd_H, .set_7_atIYd_L, .set_7_atIYd,
   .set_7_atIYd_A]

/-- FD CB d op (rule R174). -/
def iycbPage : List (Byte → Instr) := iycbPage0 ++ iycbPage1 ++ iycbPage2 ++ iycbPage3

/-- The decoding tables: what each byte of each page stands for. -/
structure Tables (α : Type) where
  main : Byte → Option (Row α)
  page : Page → Byte → Option (Row α)
  xcb : XY → Byte → Option (Byte → α)

/-- The rows of a prefix page; the XCB pages have rows of their own. -/
def Page.rows : Page → List (Row Instr)
  | .cb => cbPage
  | .ed => edPage
  | .index .ix => ixPage
  | .index .iy => iyPage
  | .xcb _ => []

/-- The XCB rows of an index register. -/
def xcbRows : XY → List (Byte → Instr)
  | .ix => ixcbPage
  | .iy => iycbPage

/-- The opcode tables of the instruction set. -/
def instrTables : Tables Instr where
  main b := mainPage[b.toNat]?
  page p b := p.rows[b.toNat]?
  xcb i b := (xcbRows i)[b.toNat]?

end

/-- Reads the operand bytes of a row that is not a prefix. -/
def Row.operands {α : Type} (r : Row α) (t : List Byte) : Except Reject (α × List Byte) :=
  match r with
  | .plain i => .ok (i, t)
  | .dropped i => .ok (i, t)
  | .page _ => .error .noRow
  | .imm8 f => match t with
    | n :: t' => .ok (f n, t')
    | [] => .error .truncated
  | .late8 f => match t with
    | n :: t' => .ok (f n, t')
    | [] => .error .truncated
  | .imm16 f => match t with
    | l :: h :: t' => .ok (f (mkWord h l), t')
    | _ => .error .truncated
  | .imm8x2 f => match t with
    | d :: n :: t' => .ok (f d n, t')
    | _ => .error .truncated

/-- `ExecXCB`'s decoding: the displacement and then the opcode (35_engine.md rule R222). -/
def decodeXcb {α : Type} (tb : Tables α) (i : XY) (t : List Byte) : Except Reject (α × List Byte) :=
  match t with
  | d :: op :: t' => match tb.xcb i op with
    | some f => .ok (f d, t')
    | none => .error .noRow
  | _ => .error .truncated

/-- Decoding on a prefix page: `t` begins with the byte after the prefix. -/
def decodePage {α : Type} (tb : Tables α) (p : Page) (t : List Byte) : Except Reject (α × List Byte) :=
  match t with
  | [] => .error .truncated
  | b :: t' => match tb.page p b with
    | none => .error .noRow
    | some (.page (.xcb i)) => decodeXcb tb i t'
    | some (.dropped i) => .ok (i, t)
    | some r => r.operands t'

/-- Decoding with given tables: the instruction at the head of a byte string and the bytes after it. A discarded index
prefix is decoded alone, and what is left begins with the byte it precedes (rules R173 and R179). -/
def decodeWith {α : Type} (tb : Tables α) (bytes : List Byte) : Except Reject (α × List Byte) :=
  match bytes with
  | [] => .error .truncated
  | b :: t => match tb.main b with
    | none => .error .noRow
    | some (.page p) => decodePage tb p t
    | some r => r.operands t

/-- The decoder. -/
noncomputable def decode (bytes : List Byte) : Except Reject (Instr × List Byte) := decodeWith instrTables bytes

/-- The longest instruction is 4 bytes (rule R160). -/
def maxBytes : Nat := 4

/-- The bytes, in address order, of a table word of `nbits` bits; every byte beyond is zero. -/
def tableBytes (nbits w : Nat) : List Byte :=
  (List.range maxBytes).map fun k => BitVec.ofNat 8 (w % 2 ^ nbits / 256 ^ k)

/-- The instruction the decoder reads from a table word (byte `k` of the instruction is bits `8k+7..8k`). -/
noncomputable def decodeTableWord (nbits w : Nat) : Option Instr :=
  match decode (tableBytes nbits w) with
  | .ok (i, _) => some i
  | .error _ => none

/-! ## Encoder (rules R160 to R174) -/

def R7.code : R7 → Nat
  | .b => 0 | .c => 1 | .d => 2 | .e => 3 | .h => 4 | .l => 5 | .a => 7

/-- `r[z]` for the copy of an XCB form; no copy is code 6. -/
def copyCode : Option R7 → Nat
  | some r => r.code
  | none => 6

def Rp.code : Rp → Nat
  | .bc => 0 | .de => 1 | .hl => 2 | .sp => 3

def Rp2.code : Rp2 → Nat
  | .bc => 0 | .de => 1 | .hl => 2 | .af => 3

def BcDe.code : BcDe → Nat
  | .bc => 0 | .de => 1

def Cond.code : Cond → Nat
  | .nz => 0 | .z => 1 | .nc => 2 | .c => 3 | .po => 4 | .pe => 5 | .p => 6 | .m => 7

def AluOp.code : AluOp → Nat
  | .add => 0 | .adc => 1 | .sub => 2 | .sbc => 3 | .and => 4 | .xor => 5 | .or => 6 | .cp => 7

def RotOp.code : RotOp → Nat
  | .rlc => 0 | .rrc => 1 | .rl => 2 | .rr => 3 | .sla => 4 | .sra => 5 | .sll => 6 | .srl => 7

/-- The index prefix byte (rule R171). -/
def XY.prefixByte : XY → Byte
  | .ix => 0xDD
  | .iy => 0xFD

/-- The opcode byte with fields `x`, `y`, `z` (rule R161). -/
def opXYZ (x y z : Nat) : Byte := BitVec.ofNat 8 (64 * x + 8 * y + z)

/-- The opcode byte with fields `x`, `p`, `q`, `z` (rule R161). -/
def opXPQZ (x p q z : Nat) : Byte := opXYZ x (2 * p + q) z

/-- The `y` code of a block instruction: bit 0 selects decrement, bit 1 repeat (rule R167). -/
def blockY (dir : Dir) (rep : Bool) : Nat :=
  4 + (match dir with
    | .up => 0
    | .down => 1) + (if rep then 2 else 0)

/-- The bytes of a form, in address order. For a discarded prefix these are the prefix and the byte it precedes. -/
def Form.encode : Form → List Byte
  | .ldRR y z => [opXYZ 1 y.code z.code]
  | .ldRN y n => [opXYZ 0 y.code 6, n]
  | .ldRHL y => [opXYZ 1 y.code 6]
  | .ldHLR z => [opXYZ 1 6 z.code]
  | .ldHLN n => [opXYZ 0 6 6, n]
  | .ldAAt p => [opXPQZ 0 p.code 1 2]
  | .ldANn nn => [opXPQZ 0 3 1 2, lo nn, hi nn]
  | .ldAtA p => [opXPQZ 0 p.code 0 2]
  | .ldNnA nn => [opXPQZ 0 3 0 2, lo nn, hi nn]
  | .ldAI => [0xED, opXYZ 1 2 7]
  | .ldAR => [0xED, opXYZ 1 3 7]
  | .ldIA => [0xED, opXYZ 1 0 7]
  | .ldRA => [0xED, opXYZ 1 1 7]
  | .ldRIdx i y d => [i.prefixByte, opXYZ 1 y.code 6, d]
  | .ldIdxR i z d => [i.prefixByte, opXYZ 1 6 z.code, d]
  | .ldIdxN i d n => [i.prefixByte, opXYZ 0 6 6, d, n]
  | .ldXX i y z => [i.prefixByte, opXYZ 1 y.code z.code]
  | .ldXN i y n => [i.prefixByte, opXYZ 0 y.code 6, n]
  | .ldRpNn p nn => [opXPQZ 0 p.code 0 1, lo nn, hi nn]
  | .ldXyNn i nn => [i.prefixByte, opXPQZ 0 2 0 1, lo nn, hi nn]
  | .ldHLAtNn nn => [opXPQZ 0 2 1 2, lo nn, hi nn]
  | .ldXyAtNn i nn => [i.prefixByte, opXPQZ 0 2 1 2, lo nn, hi nn]
  | .ldRpAtNn p nn => [0xED, opXPQZ 1 p.code 1 3, lo nn, hi nn]
  | .ldNnHL nn => [opXPQZ 0 2 0 2, lo nn, hi nn]
  | .ldNnXy i nn => [i.prefixByte, opXPQZ 0 2 0 2, lo nn, hi nn]
  | .ldNnRp p nn => [0xED, opXPQZ 1 p.code 0 3, lo nn, hi nn]
  | .ldSpHL => [opXPQZ 3 3 1 1]
  | .ldSpXy i => [i.prefixByte, opXPQZ 3 3 1 1]
  | .push p => [opXPQZ 3 p.code 0 5]
  | .pushXy i => [i.prefixByte, opXPQZ 3 2 0 5]
  | .pop p => [opXPQZ 3 p.code 0 1]
  | .popXy i => [i.prefixByte, opXPQZ 3 2 0 1]
  | .exAF => [opXYZ 0 1 0]
  | .exDEHL => [opXYZ 3 5 3]
  | .exx => [opXPQZ 3 1 1 1]
  | .exSpHL => [opXYZ 3 4 3]
  | .exSpXy i => [i.prefixByte, opXYZ 3 4 3]
  | .ldBlock dir rep => [0xED, opXYZ 2 (blockY dir rep) 0]
  | .cpBlock dir rep => [0xED, opXYZ 2 (blockY dir rep) 1]
  | .aluR op z => [opXYZ 2 op.code z.code]
  | .aluN op n => [opXYZ 3 op.code 6, n]
  | .aluHL op => [opXYZ 2 op.code 6]
  | .aluIdx op i d => [i.prefixByte, opXYZ 2 op.code 6, d]
  | .aluX op i z => [i.prefixByte, opXYZ 2 op.code z.code]
  | .incR y => [opXYZ 0 y.code 4]
  | .incHL => [opXYZ 0 6 4]
  | .incIdx i d => [i.prefixByte, opXYZ 0 6 4, d]
  | .incX i y => [i.prefixByte, opXYZ 0 y.code 4]
  | .decR y => [opXYZ 0 y.code 5]
  | .decHL => [opXYZ 0 6 5]
  | .decIdx i d => [i.prefixByte, opXYZ 0 6 5, d]
  | .decX i y => [i.prefixByte, opXYZ 0 y.code 5]
  | .daa => [opXYZ 0 4 7]
  | .cpl => [opXYZ 0 5 7]
  | .neg y => [0xED, opXYZ 1 y.val 4]
  | .ccf => [opXYZ 0 7 7]
  | .scf => [opXYZ 0 6 7]
  | .nop => [opXYZ 0 0 0]
  | .edNop op => [0xED, op]
  | .halt => [opXYZ 1 6 6]
  | .di => [opXYZ 3 6 3]
  | .ei => [opXYZ 3 7 3]
  | .im y => [0xED, opXYZ 1 y.val 6]
  | .addHL p => [opXPQZ 0 p.code 1 1]
  | .addXy i p => [i.prefixByte, opXPQZ 0 p.code 1 1]
  | .adcHL p => [0xED, opXPQZ 1 p.code 1 2]
  | .sbcHL p => [0xED, opXPQZ 1 p.code 0 2]
  | .incRp p => [opXPQZ 0 p.code 0 3]
  | .incXy i => [i.prefixByte, opXPQZ 0 2 0 3]
  | .decRp p => [opXPQZ 0 p.code 1 3]
  | .decXy i => [i.prefixByte, opXPQZ 0 2 1 3]
  | .rlca => [opXYZ 0 0 7]
  | .rrca => [opXYZ 0 1 7]
  | .rla => [opXYZ 0 2 7]
  | .rra => [opXYZ 0 3 7]
  | .rotR op z => [0xCB, opXYZ 0 op.code z.code]
  | .rotHL op => [0xCB, opXYZ 0 op.code 6]
  | .rotIdx op i d copy => [i.prefixByte, 0xCB, d, opXYZ 0 op.code (copyCode copy)]
  | .rld => [0xED, opXYZ 1 5 7]
  | .rrd => [0xED, opXYZ 1 4 7]
  | .bitR b z => [0xCB, opXYZ 1 b.val z.code]
  | .bitHL b => [0xCB, opXYZ 1 b.val 6]
  | .bitIdx b i d z => [i.prefixByte, 0xCB, d, opXYZ 1 b.val z.val]
  | .resR b z => [0xCB, opXYZ 2 b.val z.code]
  | .resHL b => [0xCB, opXYZ 2 b.val 6]
  | .resIdx b i d copy => [i.prefixByte, 0xCB, d, opXYZ 2 b.val (copyCode copy)]
  | .setR b z => [0xCB, opXYZ 3 b.val z.code]
  | .setHL b => [0xCB, opXYZ 3 b.val 6]
  | .setIdx b i d copy => [i.prefixByte, 0xCB, d, opXYZ 3 b.val (copyCode copy)]
  | .jpNn nn => [opXYZ 3 0 3, lo nn, hi nn]
  | .jpCc y nn => [opXYZ 3 y.code 2, lo nn, hi nn]
  | .jr e => [opXYZ 0 3 0, e]
  | .jrCc y e => [opXYZ 0 (y.code + 4) 0, e]
  | .djnz e => [opXYZ 0 2 0, e]
  | .jpHL => [opXPQZ 3 2 1 1]
  | .jpXy i => [i.prefixByte, opXPQZ 3 2 1 1]
  | .callNn nn => [opXPQZ 3 0 1 5, lo nn, hi nn]
  | .callCc y nn => [opXYZ 3 y.code 4, lo nn, hi nn]
  | .ret => [opXPQZ 3 0 1 1]
  | .retCc y => [opXYZ 3 y.code 0]
  | .reti => [0xED, opXYZ 1 1 5]
  | .retn y => [0xED, opXYZ 1 y.val 5]
  | .rst y => [opXYZ 3 y.val 7]
  | .inAN n => [opXYZ 3 3 3, n]
  | .inRC y => [0xED, opXYZ 1 y.code 0]
  | .inFC => [0xED, opXYZ 1 6 0]
  | .outNA n => [opXYZ 3 2 3, n]
  | .outCR y => [0xED, opXYZ 1 y.code 1]
  | .outC0 => [0xED, opXYZ 1 6 1]
  | .inBlock dir rep => [0xED, opXYZ 2 (blockY dir rep) 2]
  | .outBlock dir rep => [0xED, opXYZ 2 (blockY dir rep) 3]
  | .ignored i op => [i.prefixByte, op]

/-- The bytes of an instruction, in address order. -/
def encode (i : Instr) : List Byte := i.form.encode

/-- What `decode` leaves after the bytes of an instruction: nothing, or the byte a discarded prefix precedes. -/
def Form.unread : Form → List Byte
  | .ignored _ op => [op]
  | _ => []

/-! ## The pages by field formulas (rules R166 to R174)

The same tables over `Form`, written from the field formulas. `formTables_eq` in Machine/ByForm.lean proves that the
opcode tables above give the same instructions; compiled code decodes through these. -/

/-- `r[code]`; code 6 is no register, and no formula below asks for it. -/
def R7.ofCode : Nat → R7
  | 0 => .b | 1 => .c | 2 => .d | 3 => .e | 4 => .h | 5 => .l | _ => .a

/-- The register an XCB form copies into (rule R174). -/
def copyOf (z : Nat) : Option R7 := if z = 6 then none else some (.ofCode z)

def Rp.ofCode : Nat → Rp
  | 0 => .bc | 1 => .de | 2 => .hl | _ => .sp

def Rp2.ofCode : Nat → Rp2
  | 0 => .bc | 1 => .de | 2 => .hl | _ => .af

def Cond.ofCode : Nat → Cond
  | 0 => .nz | 1 => .z | 2 => .nc | 3 => .c | 4 => .po | 5 => .pe | 6 => .p | _ => .m

def AluOp.ofCode : Nat → AluOp
  | 0 => .add | 1 => .adc | 2 => .sub | 3 => .sbc | 4 => .and | 5 => .xor | 6 => .or | _ => .cp

def RotOp.ofCode : Nat → RotOp
  | 0 => .rlc | 1 => .rrc | 2 => .rl | 3 => .rr | 4 => .sla | 5 => .sra | 6 => .sll | _ => .srl

/-- Rule R168. -/
def mainForm (op : Byte) : Row Form :=
  let y := opY op
  let p := y / 2
  let q := y % 2
  let b := Fin.ofNat 8 y
  match opX op, opZ op with
  | 0, 0 => match y with
    | 0 => .plain .nop
    | 1 => .plain .exAF
    | 2 => .late8 .djnz
    | 3 => .imm8 .jr
    | _ => .imm8 (.jrCc (.ofCode (y - 4)))
  | 0, 1 => if q = 0 then .imm16 (.ldRpNn (.ofCode p)) else .plain (.addHL (.ofCode p))
  | 0, 2 => match y with
    | 0 => .plain (.ldAtA .bc)
    | 1 => .plain (.ldAAt .bc)
    | 2 => .plain (.ldAtA .de)
    | 3 => .plain (.ldAAt .de)
    | 4 => .imm16 .ldNnHL
    | 5 => .imm16 .ldHLAtNn
    | 6 => .imm16 .ldNnA
    | _ => .imm16 .ldANn
  | 0, 3 => .plain (if q = 0 then .incRp (.ofCode p) else .decRp (.ofCode p))
  | 0, 4 => .plain (if y = 6 then .incHL else .incR (.ofCode y))
  | 0, 5 => .plain (if y = 6 then .decHL else .decR (.ofCode y))
  | 0, 6 => .imm8 (if y = 6 then .ldHLN else .ldRN (.ofCode y))
  | 0, _ => .plain (match y with
    | 0 => .rlca
    | 1 => .rrca
    | 2 => .rla
    | 3 => .rra
    | 4 => .daa
    | 5 => .cpl
    | 6 => .scf
    | _ => .ccf)
  | 1, z => .plain (
    if y = 6 then (if z = 6 then .halt else .ldHLR (.ofCode z))
    else if z = 6 then .ldRHL (.ofCode y) else .ldRR (.ofCode y) (.ofCode z))
  | 2, z => .plain (if z = 6 then .aluHL (.ofCode y) else .aluR (.ofCode y) (.ofCode z))
  | _, 0 => .plain (.retCc (.ofCode y))
  | _, 1 => .plain (
    if q = 0 then .pop (.ofCode p)
    else match p with
      | 0 => .ret
      | 1 => .exx
      | 2 => .jpHL
      | _ => .ldSpHL)
  | _, 2 => .imm16 (.jpCc (.ofCode y))
  | _, 3 => match y with
    | 0 => .imm16 .jpNn
    | 1 => .page .cb
    | 2 => .imm8 .outNA
    | 3 => .imm8 .inAN
    | 4 => .plain .exSpHL
    | 5 => .plain .exDEHL
    | 6 => .plain .di
    | _ => .plain .ei
  | _, 4 => .imm16 (.callCc (.ofCode y))
  | _, 5 =>
    if q = 0 then .plain (.push (.ofCode p))
    else match p with
      | 0 => .imm16 .callNn
      | 1 => .page (.index .ix)
      | 2 => .page .ed
      | _ => .page (.index .iy)
  | _, 6 => .imm8 (.aluN (.ofCode y))
  | _, _ => .plain (.rst b)

/-- Rule R169. -/
def cbForm (op : Byte) : Row Form :=
  let y := opY op
  let z := opZ op
  let b := Fin.ofNat 8 y
  .plain (match opX op with
  | 0 => if z = 6 then .rotHL (.ofCode y) else .rotR (.ofCode y) (.ofCode z)
  | 1 => if z = 6 then .bitHL b else .bitR b (.ofCode z)
  | 2 => if z = 6 then .resHL b else .resR b (.ofCode z)
  | _ => if z = 6 then .setHL b else .setR b (.ofCode z))

/-- Rule R170. -/
def edForm (op : Byte) : Row Form :=
  let y := opY op
  let p := y / 2
  let q := y % 2
  let b := Fin.ofNat 8 y
  let dir : Dir := if q = 0 then .up else .down
  let rep := decide (6 ≤ y)
  match opX op, opZ op with
  | 1, 0 => .plain (if y = 6 then .inFC else .inRC (.ofCode y))
  | 1, 1 => .plain (if y = 6 then .outC0 else .outCR (.ofCode y))
  | 1, 2 => .plain (if q = 0 then .sbcHL (.ofCode p) else .adcHL (.ofCode p))
  | 1, 3 => .imm16 (if q = 0 then .ldNnRp (.ofCode p) else .ldRpAtNn (.ofCode p))
  | 1, 4 => .plain (.neg b)
  | 1, 5 => .plain (if y = 1 then .reti else .retn b)
  | 1, 6 => .plain (.im b)
  | 1, _ => .plain (match y with
    | 0 => .ldIA
    | 1 => .ldRA
    | 2 => .ldAI
    | 3 => .ldAR
    | 4 => .rrd
    | 5 => .rld
    | _ => .edNop op)
  | 2, z => .plain (
    if y < 4 then .edNop op
    else match z with
      | 0 => .ldBlock dir rep
      | 1 => .cpBlock dir rep
      | 2 => .inBlock dir rep
      | 3 => .outBlock dir rep
      | _ => .edNop op)
  | _, _ => .plain (.edNop op)

/-- Rules R171 to R173: the opcodes of `HLX` with the substitution, and every other opcode with the prefix discarded. -/
def indexForm (i : XY) (op : Byte) : Row Form :=
  let y := opY op
  let p := y / 2
  let q := y % 2
  if op == 0xCB then .page (.xcb i)
  else if !hlx.contains op then .dropped (.ignored i op)
  else match opX op, opZ op with
  | 0, 1 => if q = 0 then .imm16 (.ldXyNn i) else .plain (.addXy i (.ofCode p))
  | 0, 2 => .imm16 (if q = 0 then .ldNnXy i else .ldXyAtNn i)
  | 0, 3 => .plain (if q = 0 then .incXy i else .decXy i)
  | 0, 4 => if y = 6 then .imm8 (.incIdx i) else .plain (.incX i (.ofCode y))
  | 0, 5 => if y = 6 then .imm8 (.decIdx i) else .plain (.decX i (.ofCode y))
  | 0, _ => if y = 6 then .imm8x2 (.ldIdxN i) else .imm8 (.ldXN i (.ofCode y))
  | 1, z =>
    if y = 6 then .imm8 (.ldIdxR i (.ofCode z))
    else if z = 6 then .imm8 (.ldRIdx i (.ofCode y)) else .plain (.ldXX i (.ofCode y) (.ofCode z))
  | 2, z => if z = 6 then .imm8 (.aluIdx (.ofCode y) i) else .plain (.aluX (.ofCode y) i (.ofCode z))
  | _, 1 => .plain (if q = 0 then .popXy i else if p = 2 then .jpXy i else .ldSpXy i)
  | _, 3 => .plain (.exSpXy i)
  | _, _ => .plain (.pushXy i)

/-- Rule R174. -/
def xcbForm (i : XY) (op : Byte) : Byte → Form :=
  let y := opY op
  let z := opZ op
  let b := Fin.ofNat 8 y
  match opX op with
  | 0 => fun d => .rotIdx (.ofCode y) i d (copyOf z)
  | 1 => fun d => .bitIdx b i d (Fin.ofNat 8 z)
  | 2 => fun d => .resIdx b i d (copyOf z)
  | _ => fun d => .setIdx b i d (copyOf z)

/-- The tables by field formulas. -/
def formTables : Tables Form where
  main b := some (mainForm b)
  page p b := match p with
    | .cb => some (cbForm b)
    | .ed => some (edForm b)
    | .index i => some (indexForm i b)
    | .xcb _ => none
  xcb i b := some (xcbForm i b)

end Sys2Proof
end

