-- ==== Sys2Proof/Machine/Flags.lean ====
section
/-! DEFINITION. The flags register and every flag computation (10_state.md rule R52, 43_arith8.md rule R409, 44_control.md,
45_arith16.md rule R469, 46_rotate_shift.md rule R494, 47_bit.md rule R520, 42_exchange_block.md, 49_io.md rule R577). -/

namespace Sys2Proof.Machine

/-- The eight flags of `F` (rule R52). -/
structure Flags where
  s : Bool
  z : Bool
  y : Bool
  h : Bool
  x : Bool
  pv : Bool
  n : Bool
  c : Bool
  deriving DecidableEq, Repr

/-- `F` as flags. -/
def unpackF (f : Byte) : Flags where
  s := f.getLsbD 7
  z := f.getLsbD 6
  y := f.getLsbD 5
  h := f.getLsbD 4
  x := f.getLsbD 3
  pv := f.getLsbD 2
  n := f.getLsbD 1
  c := f.getLsbD 0

/-- Flags as `F`. -/
def Flags.pack (k : Flags) : Byte :=
  bit8 k.s <<< 7 ||| bit8 k.z <<< 6 ||| bit8 k.y <<< 5 ||| bit8 k.h <<< 4 |||
    bit8 k.x <<< 3 ||| bit8 k.pv <<< 2 ||| bit8 k.n <<< 1 ||| bit8 k.c

/-- `F.C`. -/
def flagC (f : Byte) : Bool := (unpackF f).c

/-- Bit `i` of a byte. -/
def bitAt (v : Byte) (i : Nat) : Bool := v.getLsbD i

/-- `SZYX(res)` (rule R409), over flags that keep their other bits. -/
def Flags.szyx (k : Flags) (res : Byte) : Flags :=
  { k with s := bitAt res 7, z := decide (res = 0), y := bitAt res 5, x := bitAt res 3 }

/-- `Y` and `X` from bits 5 and 3 of a byte. -/
def Flags.yx (k : Flags) (v : Byte) : Flags := { k with y := bitAt v 5, x := bitAt v 3 }

/-- No flag set. -/
def Flags.zero : Flags := ⟨false, false, false, false, false, false, false, false⟩

/-! ## 8-bit arithmetic and logic (43_arith8.md) -/

/-- `(a + s + c) mod 256` and `AddFlags(a, s, c)` (rule R409). -/
def add8 (a s : Byte) (c : Bool) : Byte × Flags :=
  let res := a + s + bit8 c
  (res, { Flags.zero.szyx res with
    h := bitAt (a ^^^ s ^^^ res) 4
    pv := bitAt a 7 == bitAt s 7 && bitAt res 7 != bitAt a 7
    n := false
    c := decide (256 ≤ a.toNat + s.toNat + c.toNat) })

/-- `(a - s - c) mod 256` and `SubFlags(a, s, c)` (rule R409). -/
def sub8 (a s : Byte) (c : Bool) : Byte × Flags :=
  let res := a - s - bit8 c
  (res, { Flags.zero.szyx res with
    h := bitAt (a ^^^ s ^^^ res) 4
    pv := bitAt a 7 != bitAt s 7 && bitAt res 7 != bitAt a 7
    n := true
    c := decide (a.toNat < s.toNat + c.toNat) })

/-- `LogicFlags(res, h)` (rule R409). -/
def logicFlags (res : Byte) (h : Bool) : Flags :=
  { Flags.zero.szyx res with h := h, pv := parity res, n := false, c := false }

/-- The accumulator and the flags after `alu[y] s` (rules R401 to R408). -/
def aluResult (op : AluOp) (a s : Byte) (c : Bool) : Byte × Flags :=
  match op with
  | .add => add8 a s false
  | .adc => add8 a s c
  | .sub => sub8 a s false
  | .sbc => sub8 a s c
  | .and => (a &&& s, logicFlags (a &&& s) true)
  | .xor => (a ^^^ s, logicFlags (a ^^^ s) false)
  | .or => (a ||| s, logicFlags (a ||| s) false)
  | .cp => (a, (sub8 a s false).2.yx s)

/-- The result and the flags of `INC` (rule R410). -/
def inc8 (v : Byte) (k : Flags) : Byte × Flags :=
  let res := v + 1
  (res, { k.szyx res with h := decide (v &&& 0x0F = 0x0F), pv := decide (v = 0x7F), n := false })

/-- The result and the flags of `DEC` (rule R414). -/
def dec8 (v : Byte) (k : Flags) : Byte × Flags :=
  let res := v - 1
  (res, { k.szyx res with h := decide (v &&& 0x0F = 0x00), pv := decide (v = 0x80), n := true })

/-! ## Accumulator and flag operations (44_control.md) -/

/-- `DAA` (rule R440). -/
def daaResult (a : Byte) (k : Flags) : Byte × Flags :=
  let low := decide (9 < (a &&& 0x0F).toNat)
  let t6 : Byte := if k.h || low then 0x06 else 0
  let high := k.c || decide (0x99 < a.toNat)
  let t := t6 ||| (if high then 0x60 else 0)
  let res := if k.n then a - t else a + t
  let h := if k.n then k.h && decide ((a &&& 0x0F).toNat < 6) else low
  (res, { k.szyx res with h := h, pv := parity res, c := high })

/-- `CPL` (rule R441). -/
def cplResult (a : Byte) (k : Flags) : Byte × Flags :=
  (~~~a, { k.yx (~~~a) with h := true, n := true })

/-- `CCF` (rule R443). -/
def ccfFlags (a : Byte) (k : Flags) : Flags := { k.yx a with h := k.c, n := false, c := !k.c }

/-- `SCF` (rule R444). -/
def scfFlags (a : Byte) (k : Flags) : Flags := { k.yx a with h := false, n := false, c := true }

/-- The flags of `LD A,I` and `LD A,R` (41_load.md rules R312 and R313). -/
def ldAirFlags (a : Byte) (iff2 : Bool) (k : Flags) : Flags :=
  { k.szyx a with h := false, pv := iff2, n := false }

/-! ## 16-bit arithmetic (45_arith16.md rule R469) -/

/-- Bit `i` of a word. -/
def bitAtW (w : Word) (i : Nat) : Bool := w.getLsbD i

/-- `ADD` of words: the sum and `Add16Flags(a, b)`. -/
def add16Result (a b : Word) (k : Flags) : Word × Flags :=
  let res := a + b
  (res, { k.yx (hi res) with
    h := bitAtW (a ^^^ b ^^^ res) 12
    n := false
    c := decide (65536 ≤ a.toNat + b.toNat) })

/-- `ADC` of words: the sum and `Adc16Flags(a, b, c)`. -/
def adc16Result (a b : Word) (c : Bool) : Word × Flags :=
  let res := a + b + bit16 c
  (res, {
    s := bitAtW res 15
    z := decide (res = 0)
    y := bitAtW res 13
    h := bitAtW (a ^^^ b ^^^ res) 12
    x := bitAtW res 11
    pv := bitAtW a 15 == bitAtW b 15 && bitAtW res 15 != bitAtW a 15
    n := false
    c := decide (65536 ≤ a.toNat + b.toNat + c.toNat) })

/-- `SBC` of words: the difference and `Sbc16Flags(a, b, c)`. -/
def sbc16Result (a b : Word) (c : Bool) : Word × Flags :=
  let res := a - b - bit16 c
  (res, {
    s := bitAtW res 15
    z := decide (res = 0)
    y := bitAtW res 13
    h := bitAtW (a ^^^ b ^^^ res) 12
    x := bitAtW res 11
    pv := bitAtW a 15 != bitAtW b 15 && bitAtW res 15 != bitAtW a 15
    n := true
    c := decide (a.toNat < b.toNat + c.toNat) })

/-! ## Rotates and shifts (46_rotate_shift.md) -/

/-- The result byte and the bit shifted out, `f(v, cin)` of rules R495 to R502. -/
def rotShift (op : RotOp) (v : Byte) (cin : Bool) : Byte × Bool :=
  match op with
  | .rlc => (v <<< 1 ||| bit8 (bitAt v 7), bitAt v 7)
  | .rrc => (v >>> 1 ||| bit8 (bitAt v 0) <<< 7, bitAt v 0)
  | .rl => (v <<< 1 ||| bit8 cin, bitAt v 7)
  | .rr => (v >>> 1 ||| bit8 cin <<< 7, bitAt v 0)
  | .sla => (v <<< 1, bitAt v 7)
  | .sra => (v >>> 1 ||| bit8 (bitAt v 7) <<< 7, bitAt v 0)
  | .sll => (v <<< 1 ||| 1, bitAt v 7)
  | .srl => (v >>> 1, bitAt v 0)

/-- The result and the flags of a CB-page rotate or shift (rule R494). -/
def rotResult (op : RotOp) (v : Byte) (k : Flags) : Byte × Flags :=
  let (res, c) := rotShift op v k.c
  (res, { Flags.zero.szyx res with h := false, pv := parity res, n := false, c := c })

/-- The result and the flags of an accumulator rotate (rules R490 to R493): S, Z and PV are kept. -/
def accRotResult (op : RotOp) (a : Byte) (k : Flags) : Byte × Flags :=
  let (res, c) := rotShift op a k.c
  (res, { k.yx res with h := false, n := false, c := c })

/-- The flags of `RLD` and `RRD`, of `IN r,(C)` and of `IN F,(C)` (rules R503, R504, R572 and R573). -/
def szpFlags (v : Byte) (k : Flags) : Flags := { k.szyx v with h := false, pv := parity v, n := false }

/-! ## Bit test (47_bit.md rule R520) -/

/-- The flags of `BIT b` on the byte `v`, with `Y` and `X` from `yx`. -/
def bitFlags (b : Fin 8) (v yx : Byte) (k : Flags) : Flags :=
  let t := bitAt v b.val
  { k.yx yx with s := decide (b = 7) && t, z := !t, h := true, pv := !t, n := false }

/-! ## Block instructions -/

/-- The flags of LDI, LDD, LDIR and LDDR on the byte `v`, with `bc` the new BC (42_exchange_block.md rule R366). -/
def ldBlockFlags (v a : Byte) (bc : Word) (k : Flags) : Flags :=
  let m := v + a
  { k with y := bitAt m 1, h := false, x := bitAt m 3, pv := decide (bc ≠ 0), n := false }

/-- The flags of CPI, CPD, CPIR and CPDR on the byte `v`, with `bc` the new BC (42_exchange_block.md rule R370). -/
def cpBlockFlags (a v : Byte) (bc : Word) (k : Flags) : Flags :=
  let r := a - v
  let h := bitAt (a ^^^ v ^^^ r) 4
  let m := r - bit8 h
  { k with s := bitAt r 7, z := decide (r = 0), y := bitAt m 1, h := h, x := bitAt m 3, pv := decide (bc ≠ 0), n := true }

/-- The flags of a block I/O iteration: `v` the byte moved, `b` the new B, `addend` what `v` is summed with
(49_io.md rule R577). -/
def ioBlockFlags (v b addend : Byte) : Flags :=
  let sum := v.toNat + addend.toNat
  { Flags.zero.szyx b with
    h := decide (255 < sum)
    pv := parity ((BitVec.ofNat 8 sum &&& 7) ^^^ b)
    n := bitAt v 7
    c := decide (255 < sum) }

/-! ## Conditions (30_encoding.md rule R166) -/

/-- `cond(cc[y])`. -/
def condHolds (cond : Cond) (k : Flags) : Bool :=
  match cond with
  | .nz => !k.z
  | .z => k.z
  | .nc => !k.c
  | .c => k.c
  | .po => !k.pv
  | .pe => k.pv
  | .p => !k.s
  | .m => k.s

end Sys2Proof.Machine
end

