-- ==== Sys2Proof/Machine/Types.lean ====
section
/-! DEFINITION. The data the block's parts are made of: Cells and storage blocks, mappings, CPU registers,
device links with their handlers and effects, replay frames, host operations. Plain data throughout. -/

namespace Sys2Proof.Machine

/-! ## Cells and storage (10_state.md rules R30 to R32) -/

/-- The nine independent flags of a Cell (rule R30). -/
structure CellFlags where
  wait : Bool := false
  breakRead : Bool := false
  breakWrite : Bool := false
  breakExec : Bool := false
  patchOnExec : Bool := false
  mmioRead : Bool := false
  mmioWrite : Bool := false
  videoTrack : Bool := false
  logAccess : Bool := false
  deriving DecidableEq, Repr, Inhabited

/-- A storage block (rule R31): an array of `len` Cells. `data` lists, by index, the Cells whose byte is not
`unlistedByte`; `flags` lists the Cells whose flags are not the block's `baseFlags`. Both are canonical
(`Block.wf`): strictly rising indexes below `len`, and no entry equal to what an unlisted Cell holds. -/
structure Block where
  id : Nat
  len : Nat
  data : List Host.Cell := []
  baseFlags : CellFlags := {}
  flags : List (Nat × CellFlags) := []
  deriving DecidableEq, Repr, Inhabited

/-- The finite map of storage blocks (rule R31), by strictly rising identifier. -/
abbrev Memory := List Block

/-- The identifier of the block named `SINK` (rule R31). -/
def sinkId : Nat := 0

/-! ## PageTable (10_state.md rules R34 to R36) -/

/-- A `Ref`: `(block, base)` makes page offset `o` reach `block[base + o]` (rule R34). -/
structure Ref where
  block : Nat
  base : Nat
  deriving DecidableEq, Repr, Inhabited

/-- A wait table with `len >= 1` entries (rule R34): the entry at 0 and the rest. -/
structure WaitTable where
  first : Byte
  rest : List Byte := []
  deriving DecidableEq, Repr, Inhabited

/-- One mapping on a PageTable entry's stack, tagged with its handle (rules R34 and R35). -/
structure Mapping where
  handle : Nat
  read : Ref
  write : Ref
  shadow : Option Ref := none
  wait : Option WaitTable := none
  deriving DecidableEq, Repr, Inhabited

/-- A request of `map` (20_memory.md rule R102): the range is `[start, start + len)`. -/
structure MapReq where
  start : Nat
  len : Nat
  read : Ref
  write : Ref
  shadow : Option Ref := none
  wait : Option WaitTable := none
  deriving DecidableEq, Repr, Inhabited

/-- The PageTable: one stack of mappings per entry, the active mapping first (rule R35). -/
abbrev PageTable := List (List Mapping)

/-! ## CPU registers (10_state.md rules R40 to R48) -/

/-- The interrupt mode `IM`, one of 0, 1 and 2 (rule R46). -/
inductive IntMode where
  | im0
  | im1
  | im2
  deriving DecidableEq, Repr, Inhabited

/-- The registers of rules R40 to R43 and R45 to R48. Primed names are the alternates of rule R41. -/
structure Regs where
  a : Byte := 0
  f : Byte := 0
  b : Byte := 0
  c : Byte := 0
  d : Byte := 0
  e : Byte := 0
  h : Byte := 0
  l : Byte := 0
  a' : Byte := 0
  f' : Byte := 0
  b' : Byte := 0
  c' : Byte := 0
  d' : Byte := 0
  e' : Byte := 0
  h' : Byte := 0
  l' : Byte := 0
  ix : Word := 0
  iy : Word := 0
  sp : Word := 0
  pc : Word := 0
  i : Byte := 0
  r : Byte := 0
  iff1 : Bool := false
  iff2 : Bool := false
  im : IntMode := .im0
  /-- `WZ`, also called MEMPTR (rule R47). -/
  wz : Word := 0
  halted : Bool := false
  intBlock : Bool := false
  nmiPending : Bool := false
  deriving DecidableEq, Repr, Inhabited

/-- One register write of a `SetRegs` effect or of the debugger: any register of rules R40 to R43 and R45 to R48. The engine
state of rule R44 is none of them (notes/assumptions/29.md). -/
inductive RegWrite where
  | a (v : Byte) | f (v : Byte) | b (v : Byte) | c (v : Byte) | d (v : Byte) | e (v : Byte) | h (v : Byte) | l (v : Byte)
  | a' (v : Byte) | f' (v : Byte) | b' (v : Byte) | c' (v : Byte) | d' (v : Byte) | e' (v : Byte) | h' (v : Byte) | l' (v : Byte)
  | ix (v : Word) | iy (v : Word) | sp (v : Word) | pc (v : Word) | i (v : Byte) | r (v : Byte)
  | iff1 (v : Bool) | iff2 (v : Bool) | im (v : IntMode) | wz (v : Word)
  | halted (v : Bool) | intBlock (v : Bool) | nmiPending (v : Bool)
  deriving DecidableEq, Repr

/-! ## Run arguments and exits (10_state.md rule R44, 35_engine.md rule R203) -/

/-- The six flag classes a sub-run may check (rule R44). -/
structure ModeFlags where
  wait : Bool := false
  brk : Bool := false
  patch : Bool := false
  mmio : Bool := false
  video : Bool := false
  log : Bool := false
  deriving DecidableEq, Repr, Inhabited

/-- The tagged result of a sub-run, codes 0 to 6 in this order (35_engine.md rule R203). -/
inductive ExitReason where
  | cycleLimitReached
  | instructionLimitReached
  | readBreakpoint (addr : Word)
  | writeBreakpoint (addr : Word)
  | execBreakpoint (addr : Word)
  | stackBreakpoint (sp : Word)
  | outOfSync
  deriving DecidableEq, Repr

/-- The kind of an access-log record (10_state.md rule R68). -/
inductive AccessKind where
  | read
  | write
  | fetch
  deriving DecidableEq, Repr

/-- A record of the access log (rules R68 and R140). -/
structure LogEntry where
  kind : AccessKind
  addr : Word
  cc : Int
  deriving DecidableEq, Repr

/-! ## Devices (50_bus.md rules R600 and R601) -/

/-- An effect a handler returns (rule R601). -/
inductive Effect where
  | map (tag : Nat) (req : MapReq)
  | unmap (tag : Nat)
  | wantPaging (b : Bool)
  | refreshOverlay
  | writeCell (block index : Nat) (v : Byte)
  | setFlags (block index : Nat) (flags : CellFlags)
  | setRegs (ws : List RegWrite)
  | requestNMI
  /-- A host-only operation attempted from inside a handler (70_reset_and_hazards.md rule R772). -/
  | hostOnly
  deriving DecidableEq, Repr

/-- A call of a handler with its arguments (rule R600). The opaque device state is a natural number: any
countable device state is coded by one. -/
inductive HandlerCall where
  | input (dev : Nat) (cc : Int) (p : Word)
  | output (dev : Nat) (cc : Int) (p : Word) (v : Byte)
  | mmioRead (dev : Nat) (cc : Int) (a : Word) (v : Byte)
  | mmioWrite (dev : Nat) (cc : Int) (a : Word) (v : Byte)
  | patch (dev : Nat) (cc : Int) (pc : Word) (op : Byte) (regs : Regs)
  | frameEnd (dev : Nat) (cc : Int)
  | audioBlockEnd (dev : Nat) (time : Int)
  | powerOn (dev : Nat) (cc : Int)
  | reset (dev : Nat) (time : Int) (cc : Int)
  deriving DecidableEq, Repr

/-- What a handler returns: the new device state, the byte of `in`, `mmio_read` or `patch`, the driven mask
of `in`, and the effects. A call that returns no byte ignores `v` and `drv` (rule R600). -/
structure HandlerResult where
  dev : Nat
  v : Byte := 0
  drv : Byte := 0
  effects : List Effect := []
  deriving DecidableEq, Repr, Inhabited

/-- One row of a handler given as data: it applies when the device state, the address and the byte of the
call are the ones named (`none` matches any), and answers with the byte `v` (`none`: the call's own). -/
structure ScriptRow where
  onDev : Option Nat := none
  onAddr : Option Word := none
  onVal : Option Byte := none
  newDev : Option Nat := none
  v : Option Byte := none
  drv : Byte := 0
  effects : List Effect := []
  deriving DecidableEq, Repr

/-- A handler: an uninterpreted function of its arguments (`Config.deviceHandler id`), or a finite table whose
first matching row answers. A table with no matching row keeps the device state and the byte, drives
nothing and has no effect. -/
inductive Handler where
  | ext (id : Nat)
  | script (rows : List ScriptRow)
  deriving DecidableEq, Repr

/-- The `overlay` handler: an uninterpreted function of the device state, or a fixed list of requests. -/
inductive Overlay where
  | ext (id : Nat)
  | fixed (reqs : List MapReq)
  deriving DecidableEq, Repr

/-- A device's handlers, fixed when it attaches (rule R600). -/
structure Handlers where
  input : Option Handler := none
  output : Option Handler := none
  mmioRead : Option Handler := none
  mmioWrite : Option Handler := none
  patch : Option Handler := none
  overlay : Overlay := .fixed []
  frameEnd : Handler := .script []
  audioBlockEnd : Handler := .script []
  powerOn : Handler := .script []
  reset : Handler := .script []
  deriving DecidableEq, Repr

/-- One link of the PeripheralChain (10_state.md rule R60). `maps` pairs a device-chosen tag with a handle;
`ovl` lists the handles of the overlay as `MapOwn` last installed it. -/
structure Link where
  inMask : Word := 0
  inBits : Word := 0
  outMask : Word := 0
  outBits : Word := 0
  want : Bool := false
  hidden : Bool := false
  dev : Nat := 0
  maps : List (Nat × Nat) := []
  ovl : List Nat := []
  handlers : Handlers := {}
  deriving DecidableEq, Repr

/-! ## Replay (10_state.md rules R65 and R66) -/

/-- The device configuration a Snapshot holds of one link (rule R66). -/
structure LinkSnap where
  dev : Nat
  want : Bool
  hidden : Bool
  maps : List (Nat × Nat)
  ovl : List Nat
  deriving DecidableEq, Repr

/-- The data of one storage block in a Snapshot: Cell flags are not part of it (70_reset_and_hazards.md rule R753). -/
structure BlockSnap where
  id : Nat
  len : Nat
  data : List Host.Cell
  deriving DecidableEq, Repr

/-- A Snapshot, `(registers, memory_blocks, device_configuration)` (rule R66). -/
structure Snapshot where
  regs : Regs
  cc : Int
  ic : Nat
  cpf : Int
  blocks : List BlockSnap
  links : List LinkSnap
  pages : PageTable
  deriving DecidableEq, Repr

/-- A ReplayFrame (rule R66). -/
structure ReplayFrame where
  length : Nat
  inputs : List Byte
  snapshot : Option Snapshot
  deriving DecidableEq, Repr

/-- The ReplaySync states (rule R65). -/
inductive ReplayMode where
  | idle
  | playing
  | recording
  | endOfFile
  | outOfSync
  deriving DecidableEq, Repr

/-! ## Configuration (00_scope.md rule R7) -/

/-- A piece of a collaborator function of the cycle position: the value for `start ≤ cc < stop`. -/
structure CcPiece (α : Type) where
  start : Int
  stop : Int
  val : α
  deriving DecidableEq, Repr

/-- A piece of `addWaitCycles`: the waits added for cycles in `[start, stop)` and addresses in `[aStart, aStop)`. -/
structure WaitPiece where
  start : Int
  stop : Int
  aStart : Nat
  aStop : Nat
  extra : Int
  deriving DecidableEq, Repr

/-- The OPEN parameters of rule R7 that one machine is configured with. The collaborator functions are known
where a piece covers the argument; elsewhere the uninterpreted functions of Config.lean give the value. -/
structure Cfg where
  /-- `PAGE_BITS`, 1 to 16. -/
  pageBits : Nat
  /-- `CPF0`. -/
  cpf0 : Int
  /-- `CW_START`. -/
  cwStart : Int
  /-- `CW_END`. -/
  cwEnd : Int
  /-- `REPLAY_SLACK`. -/
  replaySlack : Nat
  /-- `SNAPSHOT_INTERVAL`. -/
  snapshotInterval : Nat
  floatingBus : List (CcPiece Byte) := []
  waits : List WaitPiece := []
  intLine : List (CcPiece Bool) := []
  intAck : List (CcPiece Byte) := []
  flyback : List (CcPiece Int) := []
  /-- `AUDIO_BLOCK_CC(none)`, where it is known. -/
  audioFirst : Option Int := none
  /-- `AUDIO_BLOCK_CC(c)`, where it is known: a value above every `c` of its piece. -/
  audioNext : List (CcPiece Int) := []
  audioTime : List (CcPiece Int) := []
  deriving DecidableEq, Repr

/-- What `PowerOn` is given (70_reset_and_hazards.md rule R750): the configuration, the storage blocks (SINK apart)
with their images or drawn data, the chain, and the drawn register values. -/
structure PowerOnConfig where
  cfg : Cfg
  blocks : List Block
  links : List Link
  draws : Regs
  deriving DecidableEq, Repr

/-! ## Host operations (70_reset_and_hazards.md rules R772 and R773) -/

/-- What the debugger reads while the scheduler is suspended (rule R772, 60_exceptions.md rule R734). -/
inductive DebugRead where
  | regs
  | cell (block index : Nat)
  | stackBreak
  | accessLog
  | counters
  | pages
  | chain
  | replay
  deriving DecidableEq, Repr

/-- The answer to a debugger read. -/
inductive DebugValue where
  | regs (g : Regs)
  | cell (data : Byte) (flags : CellFlags)
  | stackBreak (v : Option Word)
  | accessLog (l : List LogEntry)
  | counters (cc : Int) (ic : Nat) (target cpf : Int) (frameCount : Nat) (audioCc : Int)
  | pages (p : PageTable)
  | chain (links : List Link)
  | replay (mode : ReplayMode) (stream : List ReplayFrame) (frameIx byteIx : Nat) (recBytes : List Byte)
  deriving DecidableEq, Repr

/-- One host operation, made while the scheduler is suspended. -/
inductive HostOp where
  | powerOn (c : PowerOnConfig) (cc0 : Int)
  | schedule (t : Int)
  | run (targetCc : Int) (targetIc : Nat) (mode : ModeFlags)
  | reset
  | startPlaying (s : List ReplayFrame) (k : Nat)
  | startRecording
  | stopRecording
  | holdOutOfSync
  | goLive
  | attach (pos : Nat) (link : Link)
  | detach (i : Nat)
  /-- `Load`; `none` is a failure the snapshot collaborator reports. -/
  | load (snap : Option Snapshot)
  | save
  | map (req : MapReq)
  | unmap (handle : Nat)
  | createBlock (len : Nat) (data : List Host.Cell) (flags : CellFlags)
  | freeBlock (id : Nat)
  | resizeBlock (id : Nat) (len : Nat)
  | setRegs (ws : List RegWrite)
  | writeCell (block index : Nat) (v : Byte)
  | setFlags (block index : Nat) (flags : CellFlags)
  | setStackBreak (v : Option Word)
  | requestNMI
  | debugRead (q : DebugRead)
  deriving DecidableEq, Repr

/-- What an operation answers to the host. -/
inductive HostResult where
  | done
  | exit (e : ExitReason)
  | outOfSync
  | endOfFile
  | runReturned (e : ExitReason)
  | loaded
  | loadFailed
  | saved (snap : Snapshot)
  | mapped (handle : Nat)
  | created (id : Nat)
  | read (v : DebugValue)
  deriving DecidableEq, Repr

/-- A call of an outside collaborator that changes nothing in the block, and each output cycle as it is
broadcast: the model's own trace, which no rule reads. -/
inductive Callout where
  /-- `VideoUpdate(cc)` (20_memory.md rule R141). -/
  | videoUpdate (cc : Int)
  /-- `frameFlyback(cc)` and its answer (55_scheduler_replay.md rule R650). -/
  | frameFlyback (cc : Int) (r : Int)
  /-- The video/audio collaborator's own `audioBlockEnd(time)` (55_scheduler_replay.md rule R651). -/
  | audioBlockEnd (time : Int)
  /-- `BusOut(p, v)` at `cc` (50_bus.md rule R604). -/
  | portOut (cc : Int) (p : Word) (v : Byte)
  deriving DecidableEq, Repr

/-- Where the machine's one agent stands between two steps (00_scope.md rule R6). -/
inductive Phase where
  /-- Between two host operations. -/
  | suspended
  /-- At step 1 of the scheduler loop of 55_scheduler_replay.md rule R643. -/
  | scheduling
  /-- Inside `run`, called by the scheduler or by the host itself (35_engine.md rule R200). -/
  | running (byScheduler : Bool)
  deriving DecidableEq, Repr

end Sys2Proof.Machine
end

