-- ==== Sys2Proof/Machine/State.lean ====
section
/-! DEFINITION. The machine's state (10_state.md), the reasons a step can stop (60_exceptions.md rule R702), and the
state after reset. Plain data. -/

namespace Sys2Proof.Machine

/-- The faults: the machine is in a state the hardware never reaches (00_scope.md rule R11). -/
inductive Fault where
  /-- `CycleCounterOverflow` (10_state.md rule R50): raised by the advance of `cc` of every bus cycle. The spec's own;
  safe. -/
  | cycleCounterOverflow
  /-- `InstructionCounterOverflow` (35_engine.md rule R206): raised at the end of an instruction. The spec's own; safe. -/
  | instructionCounterOverflow
  /-- `NegativeWait` (20_memory.md rule R130, 50_bus.md rule R612): raised by the waits of a memory, internal or I/O
  cycle. The spec's own; safe. -/
  | negativeWait
  /-- A bus cycle addresses a page with no active mapping. The model's own, in states that break the invariant of
  20_memory.md rule R104; raised by every memory cycle. Safe. -/
  | unmappedPage
  /-- A `Ref` names a Cell that no storage block has. The model's own, in states that break the invariant of 10_state.md
  rule R34; raised by every memory cycle. Safe. -/
  | noSuchCell
  /-- An opcode page has no row for a byte. The model's own, raised by fetching and reached by no byte (30_encoding.md
  rule R175, `fetch_row_exists` in Laws/Decode.lean). Safe. -/
  | noTableRow
  deriving DecidableEq, Repr

/-- The refusals: the model gives an input no meaning (00_scope.md rule R11). -/
inductive Refusal where
  /-- An instruction without a meaning yet. Safe. -/
  | notModelled (mnemonic : String)
  /-- `MisalignedMap` (20_memory.md rule R102): raised by `map`. The spec's own; safe. -/
  | misalignedMap
  /-- `BadUnmap` (20_memory.md rule R103): raised by `unmap`. The spec's own; safe. -/
  | badUnmap
  /-- `BadPattern` (50_bus.md rule R631): raised by `Attach` and `PowerOn`. The spec's own; safe. -/
  | badPattern
  /-- `BadPosition` (50_bus.md rules R631 and R632): raised by `Attach` and `Detach`. The spec's own; safe. -/
  | badPosition
  /-- `BadPaging` (50_bus.md rule R622): raised by `StopWanting(0)`. The spec's own; safe. -/
  | badPaging
  /-- `EffectNotAllowed` (50_bus.md rule R601): raised by a `SetRegs` effect of a handler other than `patch`. The spec's
  own; safe. -/
  | effectNotAllowed
  /-- `BadFrameGeometry` (55_scheduler_replay.md rule R653): raised by `Flyback` and `PowerOn`. The spec's own; safe. -/
  | badFrameGeometry
  /-- `BadReplayTransition` (55_scheduler_replay.md rules R660 and R661): raised by the replay operations. The spec's
  own; safe. -/
  | badReplayTransition
  /-- `Im0NotRst` (60_exceptions.md rule R714): raised by the interrupt entry in mode 0. The spec's own; safe. -/
  | im0NotRst
  /-- `NoBaseline` (70_reset_and_hazards.md rule R750): raised by `PowerOn`. The spec's own; safe. -/
  | noBaseline
  /-- `FreeWhileMapped` (70_reset_and_hazards.md rule R770): raised by freeing or resizing storage. The spec's own; safe. -/
  | freeWhileMapped
  /-- `NotSuspended` (70_reset_and_hazards.md rule R772): raised by a host-only operation made inside a handler. The spec's
  own; safe. -/
  | notSuspended
  /-- A mapping whose read reference is in `SINK` (10_state.md rule R31 has none): raised by `map`. The model's own; safe. -/
  | sinkRead
  /-- A read or write of a Cell or of its flags that names a Cell no block has, or flags for a Cell of `SINK`: raised by the
  `WriteCell` and `SetFlags` effects and by the debugger. The model's own; safe. -/
  | badCell
  /-- Storage management that names no block, or asks for an empty one: raised by creating, freeing and resizing
  storage. The model's own; safe. -/
  | badBlock
  /-- A configuration outside the ranges of 00_scope.md rule R7, with a debugger's flag on a Cell (10_state.md rule R80) or
  not in canonical form: raised by `PowerOn` and, for the form, by creating storage. The model's own; safe. -/
  | badConfig
  deriving DecidableEq, Repr

/-- The whole state of one machine instance. The last group is the model's own. -/
structure State where
  /-- Rules R40 to R43 and R45 to R48. -/
  regs : Regs
  /-- `cc : i32` (rule R50). -/
  cc : Int
  /-- `ic : u32` (rule R51). -/
  ic : Nat
  /-- `target_cc` of the sub-run (rule R44). -/
  targetCc : Int
  /-- `target_ic` of the sub-run (rule R44). -/
  targetIc : Nat
  /-- `mode_flags` of the sub-run (rule R44). -/
  mode : ModeFlags
  /-- `stack_break` (rule R44). -/
  stackBreak : Option Word
  /-- `pending_exit` (rule R49). -/
  pendingExit : Option ExitReason
  /-- `exec_bp_skip` (rule R53). -/
  execBpSkip : Option Word
  /-- The storage blocks (rules R30 and R31). -/
  mem : Memory
  /-- The PageTable (rules R34 and R35). -/
  pages : PageTable
  /-- The next fresh handle (20_memory.md rule R102). -/
  nextHandle : Nat
  /-- The PeripheralChain (rule R60). -/
  chain : List Link
  /-- `cpf` (rule R67). -/
  cpf : Int
  /-- `frame_count` (rule R67). -/
  frameCount : Nat
  /-- `audio_cc` (rule R67). -/
  audioCc : Int
  /-- `target` of the host's `Schedule` call (rule R67). -/
  target : Int
  /-- `replay_mode` (rule R65). -/
  replayMode : ReplayMode
  /-- `stream` (rule R65). -/
  stream : List ReplayFrame
  /-- `frame_ix` (rule R65). -/
  frameIx : Nat
  /-- `byte_ix` (rule R65). -/
  byteIx : Nat
  /-- `rec_bytes` (rule R65). -/
  recBytes : List Byte
  /-- `rec_snap` (rule R65). -/
  recSnap : Option Snapshot
  /-- `access_log`, oldest first (rule R68). -/
  accessLog : List LogEntry
  /-- The mark `refused` (rule R69). -/
  refused : Option Refusal
  /-- The mark `faulted` (rule R69). -/
  faulted : Option Fault
  /-- The parameters of 00_scope.md rule R7 this machine was powered on with. -/
  cfg : Cfg
  /-- Where the agent stands between two steps. -/
  phase : Phase
  /-- `Dispatch`'s byte in hand after a discarded index prefix (35_engine.md rule R220): the instruction goes on from it. -/
  latch : Option Byte
  /-- The host operations still to come, first one first (70_reset_and_hazards.md rule R773). -/
  hostOps : List HostOp
  /-- What the operations made so far answered, oldest first. -/
  results : List HostResult
  /-- The calls of outside collaborators, oldest first; no rule reads them. -/
  callouts : List Callout
  deriving DecidableEq, Repr

/-! ## Reset -/

/-- The configuration the reset state was powered on with (DESIGN CHOICE, notes/assumptions/3.md): 16 KB pages, one flat
RAM of 64 KB, a frame of 70000 cycles without a contended window, and no audio boundary within reach. -/
def defaultCfg : Cfg where
  pageBits := 14
  cpf0 := 70000
  cwStart := 0
  cwEnd := 0
  replaySlack := 0
  snapshotInterval := 1
  audioFirst := some 2147483647

/-- The RAM block of the default configuration. -/
def defaultRam : Block where
  id := 1
  len := 65536

/-- The request of the default memory controller: every address reads and writes the RAM cell of the same index. -/
def defaultMap : MapReq where
  start := 0
  len := 65536
  read := { block := 1, base := 0 }
  write := { block := 1, base := 0 }

/-- The memory controller of the default configuration: at power-on it maps the RAM. -/
def defaultController : Link where
  handlers := { powerOn := .script [{ effects := [.map 0 defaultMap] }] }

/-- What `PowerOn` is given in the default configuration; the drawn values are zero (notes/assumptions/1.md). -/
def defaultPowerOn : PowerOnConfig where
  cfg := defaultCfg
  blocks := [defaultRam]
  links := [defaultController]
  draws := {}

/-- One baseline mapping of the default configuration, for the page that begins at `base`. -/
def defaultMapping (base : Nat) : Mapping where
  handle := 0
  read := { block := 1, base := base }
  write := { block := 1, base := base }

/-- The registers of 10_state.md rule R80 at power-on; the drawn ones are zero (notes/assumptions/1.md). -/
def Regs.powerOn : Regs := { a := 0xFF, f := 0xFF, sp := 0xFFFF }

/-- The machine right after power-on (10_state.md rule R80) in the default configuration, at `cc = 0`, suspended, with
no host operation pending. `powerOn_reset` in Tests/Slice0.lean: it is what `PowerOn` leaves. -/
def State.reset : State where
  regs := Regs.powerOn
  cc := 0
  ic := 0
  targetCc := 0
  targetIc := 0
  mode := {}
  stackBreak := none
  pendingExit := none
  execBpSkip := none
  mem := [{ id := sinkId, len := 16384 }, defaultRam]
  pages := [[defaultMapping 0], [defaultMapping 16384], [defaultMapping 32768], [defaultMapping 49152]]
  nextHandle := 1
  chain := [{ defaultController with want := true, maps := [(0, 0)] }]
  cpf := 70000
  frameCount := 0
  audioCc := 2147483647
  target := 0
  replayMode := .idle
  stream := []
  frameIx := 0
  byteIx := 0
  recBytes := []
  recSnap := none
  accessLog := []
  refused := none
  faulted := none
  cfg := defaultCfg
  phase := .suspended
  latch := none
  hostOps := []
  results := []
  callouts := []

end Sys2Proof.Machine
end

