-- ==== Sys2Proof/Machine/Cells.lean ====
section
/-! DEFINITION. Storage and the PageTable as data: sparse lists in canonical form, reading and writing one Cell,
translation, `map` and `unmap` (10_state.md rules R30 to R36, 20_memory.md rules R101 to R103). -/

namespace Sys2Proof.Machine

/-! ## Sparse lists -/

/-- The value at index `i`; an unlisted index holds `dflt`. -/
def sparseGet {α : Type} (dflt : α) : List (Nat × α) → Nat → α
  | [], _ => dflt
  | (k, v) :: t, i => if k = i then v else sparseGet dflt t i

/-- Sets index `i`, keeping the canonical form: writing `dflt` removes the entry. -/
def sparseSet {α : Type} [DecidableEq α] (dflt : α) : List (Nat × α) → Nat → α → List (Nat × α)
  | [], i, v => if v = dflt then [] else [(i, v)]
  | (k, w) :: t, i, v =>
    if k < i then (k, w) :: sparseSet dflt t i v
    else
      let rest := if k = i then t else (k, w) :: t
      if v = dflt then rest else (i, v) :: rest

/-- The canonical form from index `lo` to below `len`: strictly rising indexes, no entry equal to `dflt`. -/
def sparseWf {α : Type} [DecidableEq α] (dflt : α) (len : Nat) : Nat → List (Nat × α) → Bool
  | _, [] => true
  | lo, (k, v) :: t => decide (lo ≤ k) && decide (k < len) && decide (v ≠ dflt) && sparseWf dflt len (k + 1) t

/-- The entries below `len`. -/
def sparseTrim {α : Type} (len : Nat) (l : List (Nat × α)) : List (Nat × α) := l.filter fun e => decide (e.1 < len)

/-! ## Cells -/

/-- What a byte of storage that nothing has written reads as (DESIGN CHOICE, notes/assumptions/2.md): the one definition. -/
def unlistedByte : Byte := 0x00

/-- A Cell (10_state.md rule R30). -/
structure CellView where
  data : Byte
  flags : CellFlags
  deriving DecidableEq, Repr

/-- The Cell at an index of a block. -/
def Block.cell (b : Block) (i : Nat) : CellView where
  data := sparseGet unlistedByte b.data i
  flags := sparseGet b.baseFlags b.flags i

def Block.setData (b : Block) (i : Nat) (v : Byte) : Block := { b with data := sparseSet unlistedByte b.data i v }

def Block.setFlags (b : Block) (i : Nat) (f : CellFlags) : Block := { b with flags := sparseSet b.baseFlags b.flags i f }

/-- The canonical form of a block, and `len(b) >= 1` (rule R31). -/
def Block.wf (b : Block) : Bool :=
  decide (1 ≤ b.len) && sparseWf unlistedByte b.len 0 b.data && sparseWf b.baseFlags b.len 0 b.flags

/-- The block with an identifier. -/
def Memory.block? : Memory → Nat → Option Block
  | [], _ => none
  | b :: t, id => if b.id = id then some b else Memory.block? t id

/-- Replaces a block by what `f` makes of it. -/
def Memory.update (m : Memory) (id : Nat) (f : Block → Block) : Memory := m.map fun b => if b.id = id then f b else b

/-- The Cell a `Ref` names, where there is one. -/
def Memory.cell? (m : Memory) (r : Ref) : Option CellView :=
  match m.block? r.block with
  | some b => if r.base < b.len then some (b.cell r.base) else none
  | none => none

/-- Writes the `data` of the Cell a `Ref` names. -/
def Memory.setData (m : Memory) (r : Ref) (v : Byte) : Memory := m.update r.block (·.setData r.base v)

/-- Replaces the flags of the Cell a `Ref` names. -/
def Memory.setFlags (m : Memory) (r : Ref) (f : CellFlags) : Memory := m.update r.block (·.setFlags r.base f)

/-- Inserts a block, keeping the identifiers rising. -/
def Memory.insert : Memory → Block → Memory
  | [], b => [b]
  | c :: t, b => if c.id < b.id then c :: Memory.insert t b else b :: c :: t

/-- The canonical form from identifier `lo` on: rising identifiers, every block in canonical form. -/
def Memory.wfFrom : Nat → Memory → Bool
  | _, [] => true
  | lo, b :: t => decide (lo ≤ b.id) && b.wf && Memory.wfFrom (b.id + 1) t

/-- The canonical form of memory. -/
def Memory.wf (m : Memory) : Bool := Memory.wfFrom 0 m

/-! ## PageTable -/

/-- `PAGE_SIZE` (00_scope.md rule R7). -/
def Cfg.pageSize (c : Cfg) : Nat := 2 ^ c.pageBits

/-- `N_PAGES` (00_scope.md rule R7). -/
def Cfg.nPages (c : Cfg) : Nat := 2 ^ (16 - c.pageBits)

/-- The active mapping of the page of an address (20_memory.md rule R101, 10_state.md rule R35). -/
def activeMapping (c : Cfg) (p : PageTable) (a : Word) : Option Mapping :=
  match p[a.toNat / c.pageSize]? with
  | some (m :: _) => some m
  | _ => none

/-- The Cell of a reference that an address reaches: `block[base + o]` (rule R34). -/
def Ref.at (c : Cfg) (r : Ref) (a : Word) : Ref := { block := r.block, base := r.base + a.toNat % c.pageSize }

/-- Entry `cc mod len` of a wait table (20_memory.md rule R130). -/
def WaitTable.at (t : WaitTable) (cc : Int) : Byte :=
  (t.first :: t.rest).getD (cc % ((t.rest.length : Int) + 1)).toNat 0

/-- `base + length <= len(block)`, with the block present (20_memory.md rule R102). -/
def Ref.fits (m : Memory) (r : Ref) (len : Nat) : Bool :=
  match m.block? r.block with
  | some b => decide (r.base + len ≤ b.len)
  | none => false

/-- The preconditions of `map` (rule R102). -/
def MapReq.ok (q : MapReq) (c : Cfg) (m : Memory) : Bool :=
  decide (q.start % c.pageSize = 0) && decide (q.len % c.pageSize = 0) && decide (0 < q.len) &&
    decide (q.start + q.len ≤ 65536) && q.read.fits m q.len && q.write.fits m q.len && q.shadow.all (·.fits m q.len)

/-- The mapping a request makes for its page `j` (rule R102). -/
def MapReq.page (q : MapReq) (c : Cfg) (handle j : Nat) : Mapping where
  handle := handle
  read := { q.read with base := q.read.base + j * c.pageSize }
  write := { q.write with base := q.write.base + j * c.pageSize }
  shadow := q.shadow.map fun r => { r with base := r.base + j * c.pageSize }
  wait := q.wait

/-- Pushes the pages of a request onto their entries' stacks (rule R102). -/
def PageTable.push (p : PageTable) (c : Cfg) (q : MapReq) (handle : Nat) : PageTable :=
  let k := q.start / c.pageSize
  let n := q.len / c.pageSize
  p.mapIdx fun e stack => if k ≤ e ∧ e < k + n then q.page c handle (e - k) :: stack else stack

/-- Whether some entry holds a mapping tagged `handle`. -/
def PageTable.holds (p : PageTable) (handle : Nat) : Bool := p.any (·.any (·.handle == handle))

/-- Removes the mappings tagged `handle` from every entry (rule R103). -/
def PageTable.remove (p : PageTable) (handle : Nat) : PageTable := p.map (·.filter (·.handle != handle))

/-- Whether a mapping refers to a block. -/
def Mapping.refersTo (m : Mapping) (id : Nat) : Bool :=
  m.read.block == id || m.write.block == id || m.shadow.any (·.block == id)

/-- Whether a mapping on some stack refers to a block (70_reset_and_hazards.md rule R770). -/
def PageTable.refersTo (p : PageTable) (id : Nat) : Bool := p.any (·.any (·.refersTo id))

/-- Every `Ref` of a mapping within its block, and no read reference at `SINK` (rules R31 and R34). -/
def Mapping.ok (x : Mapping) (c : Cfg) (m : Memory) : Bool :=
  x.read.fits m c.pageSize && x.write.fits m c.pageSize && x.shadow.all (·.fits m c.pageSize) && x.read.block != sinkId

/-- The PageTable invariants: `N_PAGES` entries, none empty, every `Ref` within its block (10_state.md rules R34, R35;
20_memory.md rule R104). -/
def PageTable.ok (p : PageTable) (c : Cfg) (m : Memory) : Bool :=
  decide (p.length = c.nPages) && p.all fun stack => !stack.isEmpty && stack.all (·.ok c m)

/-- One more than the greatest handle in use. -/
def PageTable.freshHandle (p : PageTable) : Nat :=
  p.foldl (fun n stack => stack.foldl (fun n x => max n (x.handle + 1)) n) 0

end Sys2Proof.Machine
end

