-- ==== Sys2Proof/Machine/Action.lean ====
section
/-! DEFINITION. Actions: what a bus cycle, an instruction or a step does to the state, ending normally with a value or in a
stop. -/

namespace Sys2Proof.Machine

/-- A stop: `fault <Reason>` or `refuse <Reason>` (00_scope.md rule R11). -/
inductive Stop where
  | fault (f : Fault)
  | refused (r : Refusal)
  deriving DecidableEq, Repr

/-- An action on the state. A stop ends it where it stands (60_exceptions.md rule R702). -/
abbrev M := EStateM Stop State

def M.fault {α : Type} (f : Fault) : M α := throw (.fault f)

def M.refuse {α : Type} (r : Refusal) : M α := throw (.refused r)

/-- The outcome of an action made in a state. -/
def perform (m : M Unit) (s : State) : Host.Outcome State Fault Refusal :=
  match m s with
  | .ok _ t => .next t
  | .error (.fault f) _ => .fault f
  | .error (.refused r) _ => .refused r

/-- Advances `cc`; leaving the i32 range is a fault (10_state.md rule R50). -/
def tick (k : Int) : M Unit := do
  let s ← get
  if 2147483647 < s.cc + k then M.fault .cycleCounterOverflow else set { s with cc := s.cc + k }

/-- Changes registers. -/
def modRegs (f : Regs → Regs) : M Unit := modify fun s => { s with regs := f s.regs }

/-- `Latch(e)`: keeps the first breakpoint of an instruction (20_memory.md rule R124). -/
def latchExit (e : ExitReason) : M Unit :=
  modify fun s => { s with pendingExit := some (s.pendingExit.getD e) }

/-- Appends a record to the access log (20_memory.md rule R140). -/
def logAccess (k : AccessKind) (a : Word) : M Unit :=
  modify fun s => { s with accessLog := s.accessLog ++ [{ kind := k, addr := a, cc := s.cc }] }

/-- Records a call of an outside collaborator. -/
def callOut (c : Callout) : M Unit := modify fun s => { s with callouts := s.callouts ++ [c] }

/-- The Cell a reference names. -/
def cellAt (r : Ref) : M CellView := do
  match (← get).mem.cell? r with
  | some c => return c
  | none => M.fault .noSuchCell

/-- Applies a register write (10_state.md rules R40 to R48). -/
def RegWrite.apply (g : Regs) : RegWrite → Regs
  | .a v => { g with a := v }
  | .f v => { g with f := v }
  | .b v => { g with b := v }
  | .c v => { g with c := v }
  | .d v => { g with d := v }
  | .e v => { g with e := v }
  | .h v => { g with h := v }
  | .l v => { g with l := v }
  | .a' v => { g with a' := v }
  | .f' v => { g with f' := v }
  | .b' v => { g with b' := v }
  | .c' v => { g with c' := v }
  | .d' v => { g with d' := v }
  | .e' v => { g with e' := v }
  | .h' v => { g with h' := v }
  | .l' v => { g with l' := v }
  | .ix v => { g with ix := v }
  | .iy v => { g with iy := v }
  | .sp v => { g with sp := v }
  | .pc v => { g with pc := v }
  | .i v => { g with i := v }
  | .r v => { g with r := v }
  | .iff1 v => { g with iff1 := v }
  | .iff2 v => { g with iff2 := v }
  | .im v => { g with im := v }
  | .wz v => { g with wz := v }
  | .halted v => { g with halted := v }
  | .intBlock v => { g with intBlock := v }
  | .nmiPending v => { g with nmiPending := v }

/-- Applies register writes in list order. -/
def applyRegWrites (ws : List RegWrite) (g : Regs) : Regs := ws.foldl RegWrite.apply g

end Sys2Proof.Machine
end

