-- ==== Sys2Proof/Config.lean ====
section
/-! DEFINITION. What an implementation fixes. The options of rule R3 have the values of rule R7; the OPEN functions
of rule R7 and the device handlers of 50_bus.md rule R600 are uninterpreted. -/

namespace Sys2Proof.Config

open Sys2Proof.Machine

/-! ## Fixed options (00_scope.md rule R7) -/

/-- `CONTEND_INTERNAL`: internal T-states are contention points (D9). -/
def contendInternal : Bool := true

/-- `OUT_C_0_VALUE`: the byte written by `OUT (C),0` (D38). -/
def outC0Value : Byte := 0x00

/-- `IM01_MODE`: the mode set by `IM 0/1` (D51). -/
def im01Mode : IntMode := .im0

/-! ## OPEN functions: uninterpreted (no proof can see a value) -/

/-- `floatingBusByte(cc)`. -/
opaque floatingBusByte : Int → Byte

/-- `addWaitCycles(cc, addr)`. -/
opaque addWaitCycles : Int → Word → Int

/-- `int_line(cc)`. -/
opaque intLine : Int → Bool

/-- `int_ack_byte(cc)`. -/
opaque intAckByte : Int → Byte

/-- `frameFlyback(cc)`, the cycles of the next frame (55_scheduler_replay.md rule R650). -/
opaque frameFlyback : Int → Int

/-- `AUDIO_BLOCK_CC(none)`, the first audio-block boundary. -/
opaque firstAudioBlock : Int

/-- `AUDIO_BLOCK_CC(c) - c - 1`: the boundary after the one at `c` is strictly greater than `c`, and nothing else is known
of it. -/
opaque audioBlockGap : Int → Nat

/-- `audio_time(c)`, the opaque `time` value. -/
opaque audioTime : Int → Int

/-- The handler `id`, applied to a call (50_bus.md rule R600: a deterministic function of its arguments). -/
opaque deviceHandler : Nat → HandlerCall → HandlerResult

/-- The `overlay` handler `id`, applied to the device state. -/
opaque deviceOverlay : Nat → Nat → List MapReq

end Sys2Proof.Config
end

