-- ==== Sys2Proof/Machine/Params.lean ====
section
/-! DEFINITION. The collaborator functions of 00_scope.md rule R7 as one machine has them: the configured value where a
piece covers the argument, the uninterpreted function elsewhere. The device handlers of 50_bus.md rule R600. -/

namespace Sys2Proof.Machine

/-- The value of the first piece that covers `cc`. -/
def pieceAt {α : Type} (ps : List (CcPiece α)) (cc : Int) : Option α :=
  (ps.find? fun p => decide (p.start ≤ cc) && decide (cc < p.stop)).map (·.val)

/-- `floatingBusByte(cc)` (50_bus.md rule R606). -/
def Cfg.floatingBusByte (c : Cfg) (cc : Int) : Byte :=
  (pieceAt c.floatingBus cc).getD (Config.floatingBusByte cc)

/-- `addWaitCycles(cc, addr)` (20_memory.md rule R130). -/
def Cfg.addWaitCycles (c : Cfg) (cc : Int) (addr : Word) : Int :=
  match c.waits.find? fun p =>
    decide (p.start ≤ cc) && decide (cc < p.stop) && decide (p.aStart ≤ addr.toNat) && decide (addr.toNat < p.aStop) with
  | some p => cc + p.extra
  | none => Config.addWaitCycles cc addr

/-- `int_line(cc)` (60_exceptions.md rule R710). -/
def Cfg.intLineAt (c : Cfg) (cc : Int) : Bool :=
  (pieceAt c.intLine cc).getD (Config.intLine cc)

/-- `int_ack_byte(cc)` (60_exceptions.md rules R714 and R716). -/
def Cfg.intAckByte (c : Cfg) (cc : Int) : Byte :=
  (pieceAt c.intAck cc).getD (Config.intAckByte cc)

/-- `frameFlyback(cc)` (55_scheduler_replay.md rule R650). -/
def Cfg.frameFlyback (c : Cfg) (cc : Int) : Int :=
  (pieceAt c.flyback cc).getD (Config.frameFlyback cc)

/-- `AUDIO_BLOCK_CC(none)`, the first audio-block boundary. -/
def Cfg.firstAudioCc (c : Cfg) : Int :=
  c.audioFirst.getD Config.firstAudioBlock

/-- `AUDIO_BLOCK_CC(cc)`, the boundary after the one at `cc` (55_scheduler_replay.md rule R651), strictly greater than `cc`
(00_scope.md rule R7): a piece counts only where its value is. `PowerOn` takes no other pieces (`Cfg.audioOk`). -/
def Cfg.nextAudioCc (c : Cfg) (cc : Int) : Int :=
  ((pieceAt c.audioNext cc).filter fun n => decide (cc < n)).getD (cc + 1 + Config.audioBlockGap cc)

/-- Every piece of `AUDIO_BLOCK_CC` lies strictly above the positions it covers (00_scope.md rule R7). -/
def Cfg.audioOk (c : Cfg) : Bool := c.audioNext.all fun p => decide (p.stop ≤ p.val)

/-- `audio_time(cc)`. -/
def Cfg.audioTimeAt (c : Cfg) (cc : Int) : Int :=
  (pieceAt c.audioTime cc).getD (Config.audioTime cc)

/-! ## Handlers -/

/-- The device state a call is made with. -/
def HandlerCall.dev : HandlerCall → Nat
  | .input d _ _ => d
  | .output d _ _ _ => d
  | .mmioRead d _ _ _ => d
  | .mmioWrite d _ _ _ => d
  | .patch d _ _ _ _ => d
  | .frameEnd d _ => d
  | .audioBlockEnd d _ => d
  | .powerOn d _ => d
  | .reset d _ _ => d

/-- The port or memory address of a call. -/
def HandlerCall.addr : HandlerCall → Option Word
  | .input _ _ p => some p
  | .output _ _ p _ => some p
  | .mmioRead _ _ a _ => some a
  | .mmioWrite _ _ a _ => some a
  | .patch _ _ pc _ _ => some pc
  | .frameEnd _ _ => none
  | .audioBlockEnd _ _ => none
  | .powerOn _ _ => none
  | .reset _ _ _ => none

/-- The byte of a call. -/
def HandlerCall.val : HandlerCall → Option Byte
  | .input _ _ _ => none
  | .output _ _ _ v => some v
  | .mmioRead _ _ _ v => some v
  | .mmioWrite _ _ _ v => some v
  | .patch _ _ _ op _ => some op
  | .frameEnd _ _ => none
  | .audioBlockEnd _ _ => none
  | .powerOn _ _ => none
  | .reset _ _ _ => none

/-- A script row's pattern for one argument: `none` matches any. -/
def rowMatches {α : Type} [DecidableEq α] (pat : Option α) (arg : Option α) : Bool :=
  match pat with
  | none => true
  | some v => decide (arg = some v)

/-- Whether a script row applies to a call. -/
def ScriptRow.matches (r : ScriptRow) (c : HandlerCall) : Bool :=
  rowMatches r.onDev (some c.dev) && rowMatches r.onAddr c.addr && rowMatches r.onVal c.val

/-- A handler's answer (50_bus.md rule R600). -/
def Handler.call (h : Handler) (c : HandlerCall) : HandlerResult :=
  match h with
  | .ext id => Config.deviceHandler id c
  | .script rows => match rows.find? (·.matches c) with
    | some r => {
        dev := r.newDev.getD c.dev
        v := r.v.getD (c.val.getD 0xFF#8)
        drv := r.drv
        effects := r.effects }
    | none => { dev := c.dev, v := c.val.getD 0xFF#8 }

/-- The mapping requests of a link's `overlay` (50_bus.md rule R600). -/
def Overlay.requests (o : Overlay) (dev : Nat) : List MapReq :=
  match o with
  | .ext id => Config.deviceOverlay id dev
  | .fixed reqs => reqs

end Sys2Proof.Machine
end

