-- ==== Sys2Proof/Machine/Bus.lean ====
section
/-! DEFINITION. The Bus and the PeripheralChain (50_bus.md): `map` and `unmap`, the paging protocol, handler effects, port
matching, the IN merge, the OUT broadcast, the memory-mapped I/O and patch callouts, and the replay hook. -/

namespace Sys2Proof.Machine

/-! ## Mapping (20_memory.md rules R102 and R103) -/

/-- `map`: installs a mapping and answers its fresh handle. -/
def mapPages (q : MapReq) : M Nat := do
  let s ← get
  if !q.ok s.cfg s.mem then M.refuse .misalignedMap
  else if q.read.block == sinkId then M.refuse .sinkRead
  else
    set { s with pages := s.pages.push s.cfg q s.nextHandle, nextHandle := s.nextHandle + 1 }
    return s.nextHandle

/-- `unmap`: removes the mappings of a handle; an unknown handle or an entry left empty is refused. -/
def unmapPages (handle : Nat) : M Unit := do
  let s ← get
  if !s.pages.holds handle then M.refuse .badUnmap
  else if s.pages.any fun st => !st.isEmpty && (st.filter (·.handle != handle)).isEmpty then M.refuse .badUnmap
  else set { s with pages := s.pages.remove handle }

/-! ## Paging-signal propagation (rules R620 to R625) -/

/-- `hidden[i]` holds exactly when some `k > i` has `want[k]` (rule R624), for the links from the head on. -/
def pagingOk : List Link → Bool
  | [] => true
  | l :: t => l.hidden == t.any (·.want) && pagingOk t

/-- `L[0]` is there and wants (10_state.md rule R60). -/
def headWants (chain : List Link) : Bool := chain[0]?.any (·.want)

/-- Changes link `i`. -/
def modLink (i : Nat) (f : Link → Link) : M Unit := modify fun s => { s with chain := s.chain.modify i f }

/-- `want[i]`. -/
def State.want (s : State) (i : Nat) : Bool := s.chain[i]?.any (·.want)

/-- `hidden[i]`. -/
def State.hidden (s : State) (i : Nat) : Bool := s.chain[i]?.any (·.hidden)

/-- `MapOwn(i)` (rule R625): the new overlay is installed before the old one is removed. -/
def mapOwn (i : Nat) : M Unit := do
  match (← get).chain[i]? with
  | none => return ()
  | some l =>
    let new ← (l.handlers.overlay.requests l.dev).mapM mapPages
    l.ovl.forM unmapPages
    modLink i fun k => { k with ovl := new }

/-- `SetRomVisible(j, v)` (rule R623). -/
def setRomVisible (j : Nat) (v : Bool) : M Unit := do
  modLink j fun k => { k with hidden := !v }
  let s ← get
  match v, s.want j with
  | true, true => mapOwn j
  | false, true => return ()
  | _, false => match j with
    | 0 => return ()
    | k + 1 => setRomVisible k v

/-- `StartWanting(i)` (rule R621). -/
def startWanting (i : Nat) : M Unit := do
  if (← get).want i then return ()
  modLink i fun k => { k with want := true }
  match i with
  | 0 => pure ()
  | j + 1 => setRomVisible j false
  if (← get).hidden i then return ()
  mapOwn i

/-- `StopWanting(i)` (rule R622). -/
def stopWanting (i : Nat) : M Unit := do
  match i with
  | 0 => M.refuse .badPaging
  | j + 1 =>
    if !(← get).want (j + 1) then return ()
    modLink (j + 1) fun k => { k with want := false }
    if (← get).hidden (j + 1) then return ()
    setRomVisible j true

/-! ## Effects (rule R601) -/

/-- Writes the `data` of a Cell outside any bus cycle. -/
def pokeCell (r : Ref) (v : Byte) : M Unit := do
  let s ← get
  match s.mem.cell? r with
  | none => M.refuse .badCell
  | some _ => set { s with mem := s.mem.setData r v }

/-- Replaces a Cell's flags. The Cells of SINK carry none (10_state.md rule R31). -/
def pokeFlags (r : Ref) (f : CellFlags) : M Unit := do
  let s ← get
  match s.mem.cell? r with
  | none => M.refuse .badCell
  | some _ => if r.block == sinkId then M.refuse .badCell else set { s with mem := s.mem.setFlags r f }

/-- The handle a link holds under a tag. -/
def Link.handleOf (l : Link) (tag : Nat) : Option Nat := (l.maps.find? (·.1 == tag)).map (·.2)

/-- The `Unmap(tag)` effect of link `i`. -/
def unmapTag (i tag : Nat) : M Unit := do
  match ((← get).chain[i]?).bind (·.handleOf tag) with
  | none => return ()
  | some h =>
    unmapPages h
    modLink i fun k => { k with maps := k.maps.filter (·.1 != tag) }

/-- One effect of a handler of link `i`; `patching` says that the handler is `patch`. `Map` with a tag already held installs
the new mapping before it removes the old one (92_eei_decisions.md D60, notes/assumptions/17.md). -/
def applyEffect (i : Nat) (patching : Bool) : Effect → M Unit
  | .map tag q => do
    let h ← mapPages q
    unmapTag i tag
    modLink i fun k => { k with maps := k.maps ++ [(tag, h)] }
  | .unmap tag => unmapTag i tag
  | .wantPaging true => startWanting i
  | .wantPaging false => stopWanting i
  | .refreshOverlay => do
    let s ← get
    if s.want i && !s.hidden i then mapOwn i else return ()
  | .writeCell b k v => pokeCell { block := b, base := k } v
  | .setFlags b k f => pokeFlags { block := b, base := k } f
  | .setRegs ws => if patching then modRegs (applyRegWrites ws) else M.refuse .effectNotAllowed
  | .requestNMI => modRegs fun g => { g with nmiPending := true }
  | .hostOnly => M.refuse .notSuspended

/-- Calls a handler of link `i`, stores the device's new state and applies the effects in list order (rules R600, R601). -/
def runHandler (i : Nat) (patching : Bool) (h : Handler) (call : HandlerCall) : M HandlerResult := do
  let r := h.call call
  modLink i fun k => { k with dev := r.dev }
  r.effects.forM (applyEffect i patching)
  return r

/-- Folds over the links in chain order, each as it stands when the walk reaches it. -/
def foldChain {α : Type} (f : α → Nat → Link → M α) (x : α) : M α := do
  (List.range (← get).chain.length).foldlM (init := x) fun y i => do
    match (← get).chain[i]? with
    | some l => f y i l
    | none => return y

/-! ## Ports (rules R602 to R608) -/

/-- Rule R602, for an input. -/
def Link.matchesIn (l : Link) (p : Word) : Bool := l.handlers.input.isSome && (p &&& l.inMask) == l.inBits

/-- Rule R602, for an output. -/
def Link.matchesOut (l : Link) (p : Word) : Bool := l.handlers.output.isSome && (p &&& l.outMask) == l.outBits

/-- A pattern no port can match (rule R631): bits outside the mask, on a link with the handler. -/
def Link.badPattern (l : Link) : Bool :=
  (l.handlers.input.isSome && (l.inBits &&& ~~~l.inMask) != 0#16) ||
    (l.handlers.output.isSome && (l.outBits &&& ~~~l.outMask) != 0#16)

/-- `BusIn(p)` (rule R603). -/
def busIn (p : Word) : M Byte := do
  let (acc, drv) ← foldChain (α := Byte × Byte) (x := (0xFF#8, 0x00#8)) fun (acc, drv) i l => do
    match l.handlers.input with
    | some h =>
      if l.matchesIn p then
        let r ← runHandler i false h (.input l.dev (← get).cc p)
        return (acc &&& (r.v ||| ~~~r.drv), drv ||| r.drv)
      else return (acc, drv)
    | none => return (acc, drv)
  let s ← get
  return acc &&& (s.cfg.floatingBusByte s.cc ||| drv)

/-- `BusOut(p, v)` (rule R604). -/
def busOut (p : Word) (v : Byte) : M Unit :=
  foldChain (x := ()) fun _ i l => do
    match l.handlers.output with
    | some h =>
      if l.matchesOut p then
        let _ ← runHandler i false h (.output l.dev (← get).cc p v)
        return ()
      else return ()
    | none => return ()

/-- `ReplayIn(v)` (rule R608). With no current frame there is no byte left, as with no byte left in it. -/
def replayIn (v : Byte) : M Byte := do
  let s ← get
  match s.replayMode with
  | .playing =>
    match s.stream[s.frameIx]?.bind (·.inputs[s.byteIx]?) with
    | some b => do
      set { s with byteIx := s.byteIx + 1 }
      return b
    | none => do
      set { s with replayMode := .outOfSync }
      return v
  | .recording =>
    set { s with recBytes := s.recBytes ++ [v] }
    return v
  | .idle => return v
  | .endOfFile => return v
  | .outOfSync => return v

/-! ## Memory-mapped I/O and patches (rules R614 to R616) -/

/-- `MmioRead(cc, a, v)`. -/
def mmioRead (a : Word) (v : Byte) : M Byte :=
  foldChain (x := v) fun v i l => do
    match l.handlers.mmioRead with
    | some h =>
      let r ← runHandler i false h (.mmioRead l.dev (← get).cc a v)
      return r.v
    | none => return v

/-- `MmioWrite(cc, a, v)`. -/
def mmioWrite (a : Word) (v : Byte) : M Unit :=
  foldChain (x := ()) fun _ i l => do
    match l.handlers.mmioWrite with
    | some h =>
      let _ ← runHandler i false h (.mmioWrite l.dev (← get).cc a v)
      return ()
    | none => return ()

/-- `Patch(a, op)` (rule R616). The `regs` a handler is given are those of rules R40 to R43 and R45 to R48: the run arguments and
`stack_break` of rule R44 are left out as engine state (DEDUCED, notes/assumptions/29.md). -/
def patchFetch (a : Word) (op : Byte) : M Byte :=
  foldChain (x := op) fun op i l => do
    match l.handlers.patch with
    | some h =>
      let s ← get
      let r ← runHandler i true h (.patch l.dev s.cc a op s.regs)
      return r.v
    | none => return op

/-! ## Lifecycle callbacks (rule R630) -/

/-- A lifecycle callback of every link in chain order. -/
def lifecycle (pick : Handlers → Handler) (call : Nat → HandlerCall) : M Unit :=
  foldChain (x := ()) fun _ i l => do
    let _ ← runHandler i false (pick l.handlers) (call l.dev)
    return ()

end Sys2Proof.Machine
end

