-- ==== Sys2Proof/Machine/Ops.lean ====
section
/-! DEFINITION. The operations the meanings are made of: register access, the bus cycles of 20_memory.md rules R120 to R123
and 50_bus.md rules R610 and R611, the stack (41_load.md rule R330), taking an interrupt (60_exceptions.md rules R713 to
R716) and returning from one (48_jump_call.md rules R551 and R552). -/

namespace Sys2Proof.Machine

/-! ## Registers (10_state.md rules R40 to R43) -/

def Regs.get8 (g : Regs) : Reg8 → Byte
  | .b => g.b
  | .c => g.c
  | .d => g.d
  | .e => g.e
  | .h => g.h
  | .l => g.l
  | .a => g.a
  | .ixh => hi g.ix
  | .ixl => lo g.ix
  | .iyh => hi g.iy
  | .iyl => lo g.iy

/-- Writing a half of an index register leaves the other half (30_encoding.md rule R172). -/
def Regs.set8 (g : Regs) (r : Reg8) (v : Byte) : Regs :=
  match r with
  | .b => { g with b := v }
  | .c => { g with c := v }
  | .d => { g with d := v }
  | .e => { g with e := v }
  | .h => { g with h := v }
  | .l => { g with l := v }
  | .a => { g with a := v }
  | .ixh => { g with ix := mkWord v (lo g.ix) }
  | .ixl => { g with ix := mkWord (hi g.ix) v }
  | .iyh => { g with iy := mkWord v (lo g.iy) }
  | .iyl => { g with iy := mkWord (hi g.iy) v }

/-- `BC = {B, C}` (00_scope.md rule R10). -/
def Regs.bc (g : Regs) : Word := mkWord g.b g.c

/-- `DE = {D, E}`. -/
def Regs.de (g : Regs) : Word := mkWord g.d g.e

/-- `HL = {H, L}`. -/
def Regs.hl (g : Regs) : Word := mkWord g.h g.l

/-- `AF = {A, F}`. -/
def Regs.af (g : Regs) : Word := mkWord g.a g.f

/-- `{I, R}`, the address on the bus during the `N ir` cycles (10_state.md rule R45). -/
def Regs.ir (g : Regs) : Word := mkWord g.i g.r

def Regs.get16 (g : Regs) : Reg16 → Word
  | .bc => g.bc
  | .de => g.de
  | .hl => g.hl
  | .sp => g.sp
  | .af => g.af
  | .ix => g.ix
  | .iy => g.iy

/-- Writing a pair writes its two bytes. -/
def Regs.set16 (g : Regs) (r : Reg16) (w : Word) : Regs :=
  match r with
  | .bc => { g with b := hi w, c := lo w }
  | .de => { g with d := hi w, e := lo w }
  | .hl => { g with h := hi w, l := lo w }
  | .sp => { g with sp := w }
  | .af => { g with a := hi w, f := lo w }
  | .ix => { g with ix := w }
  | .iy => { g with iy := w }

/-- The registers as they stand. -/
def theRegs : M Regs := return (← get).regs

/-! ## Memory bus cycles (20_memory.md rules R120 to R130) -/

/-- The active mapping of the page of an address (rule R101). -/
def active (a : Word) : M Mapping := do
  let s ← get
  match activeMapping s.cfg s.pages a with
  | some m => return m
  | none => M.fault .unmappedPage

/-- `cc <- cc + Wait(a, m, cell)` (rule R130). -/
def waitFor (a : Word) (m : Mapping) (c : CellView) : M Unit := do
  let s ← get
  if s.mode.wait && c.flags.wait then
    match m.wait with
    | some t => tick (t.at s.cc).toNat
    | none =>
      let w := s.cfg.addWaitCycles s.cc a - s.cc
      if w < 0 then M.fault .negativeWait else tick w
  else return ()

/-- `MR(a)` (rule R120). -/
def mr (a : Word) : M Byte := do
  let m ← active a
  let r := m.read.at (← get).cfg a
  let cell ← cellAt r
  waitFor a m cell
  let mode := (← get).mode
  let v ← if cell.flags.mmioRead && mode.mmio then mmioRead a cell.data else pure cell.data
  let now ← cellAt r
  if now.flags.breakRead && mode.brk then latchExit (.readBreakpoint a)
  if now.flags.logAccess && mode.log then logAccess .read a
  tick 3
  return v

/-- `WriteCell(c, a, v)` (rule R121). -/
def writeCell (r : Ref) (a : Word) (v : Byte) : M Unit := do
  let cell ← cellAt r
  let mode := (← get).mode
  if cell.flags.videoTrack && mode.video then callOut (.videoUpdate (← get).cc)
  modify fun s => { s with mem := s.mem.setData r v }
  if cell.flags.mmioWrite && mode.mmio then mmioWrite a v
  let now ← cellAt r
  if now.flags.breakWrite && mode.brk then latchExit (.writeBreakpoint a)
  if now.flags.logAccess && mode.log then logAccess .write a

/-- `MW(a, v)` (rule R121): the mapping is the one active when the cycle starts. -/
def mw (a : Word) (v : Byte) : M Unit := do
  let m ← active a
  let cfg := (← get).cfg
  let cell ← cellAt (m.write.at cfg a)
  waitFor a m cell
  writeCell (m.write.at cfg a) a v
  match m.shadow with
  | some r => writeCell (r.at cfg a) a v
  | none => pure ()
  tick 3

/-- `R <- {R[7], (R[6:0] + 1) mod 128}` (10_state.md rule R45). -/
def refresh : M Unit := modRegs fun g => { g with r := bumpR g.r }

/-- `M1(a)` (rule R122). -/
def m1 (a : Word) : M Byte := do
  let m ← active a
  let r := m.read.at (← get).cfg a
  let cell ← cellAt r
  waitFor a m cell
  let mode := (← get).mode
  let op ← if cell.flags.mmioRead && mode.mmio then mmioRead a cell.data else pure cell.data
  let now ← cellAt r
  let op ← if now.flags.patchOnExec && mode.patch then patchFetch a op else pure op
  let now ← cellAt r
  if now.flags.logAccess && mode.log then logAccess .fetch a
  refresh
  tick 4
  return op

/-- One internal T-state of `N(a, k)` (rule R123). -/
def internal1 (a : Word) : M Unit := do
  if Config.contendInternal then
    let m ← active a
    let cell ← cellAt (m.read.at (← get).cfg a)
    waitFor a m cell
  tick 1

/-- `N(a, k)` (rule R123). -/
def internal (a : Word) : Nat → M Unit
  | 0 => return ()
  | k + 1 => do
    internal1 a
    internal a k

/-! ## I/O bus cycles (50_bus.md rules R610 to R612) -/

/-- `cc <- cc + IoWait(p)`. -/
def ioWait (p : Word) : M Unit := do
  let s ← get
  if s.mode.wait then
    let w := s.cfg.addWaitCycles s.cc p - s.cc
    if w < 0 then M.fault .negativeWait else tick w
  else return ()

/-- `IOR(p)`. -/
def ior (p : Word) : M Byte := do
  ioWait p
  let v ← busIn p
  let v ← replayIn v
  tick 4
  return v

/-- `IOW(p, v)`. -/
def iow (p : Word) (v : Byte) : M Unit := do
  ioWait p
  callOut (.portOut (← get).cc p v)
  busOut p v
  tick 4

/-! ## Instruction bytes (00_scope.md rule R11) -/

/-- `PC <- PC + 1`. -/
def stepPc : M Unit := modRegs fun g => { g with pc := g.pc + 1 }

/-- `imm8()`. -/
def imm8 : M Byte := do
  let v ← mr (← theRegs).pc
  stepPc
  return v

/-- `imm16()`: low byte first. -/
def imm16 : M Word := do
  let l ← imm8
  let h ← imm8
  return mkWord h l

/-- `op <- M1(PC); PC <- PC + 1` (35_engine.md rule R220). -/
def fetchOp : M Byte := do
  let op ← m1 (← theRegs).pc
  stepPc
  return op

/-! ## 16-bit memory operands and the stack -/

/-- `MemRead(a, 2)`: the byte at `a` first (20_memory.md rule R110). -/
def mr16 (a : Word) : M Word := do
  let l ← mr a
  let h ← mr (a + 1)
  return mkWord h l

/-- `MemWrite(a, 2, w)`: the low byte first (20_memory.md rule R110). -/
def mw16 (a w : Word) : M Unit := do
  mw a (lo w)
  mw (a + 1) (hi w)

/-- `Push16(w)` (41_load.md rule R330). -/
def push16 (w : Word) : M Unit := do
  modRegs fun g => { g with sp := g.sp - 1 }
  mw (← theRegs).sp (hi w)
  modRegs fun g => { g with sp := g.sp - 1 }
  mw (← theRegs).sp (lo w)

/-- `Pop16()` (41_load.md rule R330). -/
def pop16 : M Word := do
  let l ← mr (← theRegs).sp
  modRegs fun g => { g with sp := g.sp + 1 }
  let h ← mr (← theRegs).sp
  modRegs fun g => { g with sp := g.sp + 1 }
  return mkWord h l

/-- `PC <- w; WZ <- w`. -/
def jumpTo (w : Word) : M Unit := modRegs fun g => { g with pc := w, wz := w }

/-! ## Taking an interrupt and returning from one -/

/-- The shared entry of rules R713 to R716: a halted CPU goes past its HALT byte, IFF1 (and, but for an NMI, IFF2) is
cleared, R counts, the acknowledge takes `ack` T-states, PC is pushed, and execution goes to `target`. -/
def enterInterrupt (nmi : Bool) (ack : Int) (target : M Word) : M Unit := do
  modRegs fun g => if g.halted then { g with halted := false, pc := g.pc + 1 } else g
  modRegs fun g => { g with iff1 := false, iff2 := nmi && g.iff2 }
  refresh
  tick ack
  push16 (← theRegs).pc
  jumpTo (← target)

/-- `AcceptNMI()` (rule R713). -/
def acceptNmi : M Unit := do
  modRegs fun g => { g with nmiPending := false, intBlock := false }
  enterInterrupt true 5 (pure 0x0066)

/-- The vector read of mode 2: `{MR(v + 1), MR(v)}` with `v = {I, b}` (rule R716). -/
def vectorRead (b : Byte) : M Word := do
  mr16 (mkWord (← theRegs).i b)

/-- `AcceptINT()` (rules R714 to R716). -/
def acceptInt : M Unit := do
  let s ← get
  let b := s.cfg.intAckByte s.cc
  match s.regs.im with
  | .im0 =>
    if b &&& 0xC7 != 0xC7 then M.refuse .im0NotRst
    else enterInterrupt false 7 (pure (mkWord 0 (b &&& 0x38)))
  | .im1 => enterInterrupt false 7 (pure 0x0038)
  | .im2 => enterInterrupt false 7 (vectorRead b)

/-- The return of RETI and RETN (48_jump_call.md rules R551 and R552). -/
def returnInterrupt : M Unit := do
  jumpTo (← pop16)
  modRegs fun g => { g with iff1 := g.iff2 }

end Sys2Proof.Machine
end

