-- ==== Sys2Proof/Machine/Operands.lean ====
section
/-! DEFINITION. Operand access: register operands, `(HL)`, `(ii+d)` (35_engine.md rules R222 and R223), and `A` with the flags
as an instruction's result. -/

namespace Sys2Proof.Machine

/-! ## Registers as operands -/

def getReg8 (r : Reg8) : M Byte := return (← theRegs).get8 r

def putReg8 (r : Reg8) (v : Byte) : M Unit := modRegs (·.set8 r v)

def getReg16 (r : Reg16) : M Word := return (← theRegs).get16 r

def putReg16 (r : Reg16) (w : Word) : M Unit := modRegs (·.set16 r w)

/-- The flags as they stand. -/
def Regs.flags (g : Regs) : Flags := unpackF g.f

/-- Writes the flags. -/
def Regs.setFlags (g : Regs) (k : Flags) : Regs := { g with f := k.pack }

/-- Writes `A` and the flags. -/
def Regs.setAF (g : Regs) (r : Byte × Flags) : Regs := { g with a := r.1, f := r.2.pack }

/-! ## Memory operands -/

/-- The effective address of `(ii+d)`: `ii + sext_16(d)` (30_encoding.md rule R162). -/
def Regs.indexed (g : Regs) (i : XY) (d : Byte) : Word := g.get16 i.reg + sext16 d

/-- The internal T-states after the last byte of an instruction, at that byte's address; the effective address is `ea`. -/
def indexAddr (i : XY) (d : Byte) (k : Nat) : M Word := do
  internal ((← theRegs).pc - 1) k
  let ea := (← theRegs).indexed i d
  modRegs fun g => { g with wz := ea }
  return ea

/-- The address of a memory operand outside the XCB format: `HL`, or `DispEA(ii)` once the displacement is read
(35_engine.md rule R223). -/
def memAddr : Mem8 → M Word
  | .atHL => getReg16 .hl
  | .atIdx i d => indexAddr i d 5

/-- The address of a CB-page memory operand: `HL`, or the XCB address once the opcode byte is read (35_engine.md rule R222). -/
def cbAddr : Mem8 → M Word
  | .atHL => getReg16 .hl
  | .atIdx i d => indexAddr i d 2

/-- An 8-bit source operand (41_load.md, 43_arith8.md rule R400). -/
def source : Src8 → M Byte
  | .reg r => getReg8 r
  | .imm n => return n
  | .atHL => do mr (← memAddr .atHL)
  | .atIdx i d => do mr (← memAddr (.atIdx i d))

end Sys2Proof.Machine
end

