-- ==== Sys2Proof/Machine/Arith16.lean ====
section
/-! DEFINITION. 16-bit arithmetic (45_arith16.md). -/

namespace Sys2Proof.Machine

/-! ## Shared operations -/

/-- Rules R470 and R471. -/
def add16 (dst src : Reg16) : M Unit := do
  internal (← theRegs).ir 7
  modRegs fun g =>
    let a := g.get16 dst
    let (res, k) := add16Result a (g.get16 src) g.flags
    { (g.set16 dst res).setFlags k with wz := a + 1 }

/-- Rule R472. -/
def adc16 (src : Reg16) : M Unit := do
  internal (← theRegs).ir 7
  modRegs fun g =>
    let (res, k) := adc16Result g.hl (g.get16 src) g.flags.c
    { (g.set16 .hl res).setFlags k with wz := g.hl + 1 }

/-- Rule R473. -/
def sbc16 (src : Reg16) : M Unit := do
  internal (← theRegs).ir 7
  modRegs fun g =>
    let (res, k) := sbc16Result g.hl (g.get16 src) g.flags.c
    { (g.set16 .hl res).setFlags k with wz := g.hl + 1 }

/-- Rules R474 and R475. -/
def inc16 (r : Reg16) : M Unit := do
  internal (← theRegs).ir 2
  modRegs fun g => g.set16 r (g.get16 r + 1)

/-- Rules R476 and R477. -/
def dec16 (r : Reg16) : M Unit := do
  internal (← theRegs).ir 2
  modRegs fun g => g.set16 r (g.get16 r - 1)

/-! ## One meaning per instruction -/

/-- `INC BC` (rule R474). -/
def execInc_BC (s : State) : Host.Outcome State Fault Refusal := perform (inc16 .bc) s

/-- `ADD HL,BC` (rule R470). -/
def execAdd_HL_BC (s : State) : Host.Outcome State Fault Refusal := perform (add16 .hl .bc) s

/-- `DEC BC` (rule R476). -/
def execDec_BC (s : State) : Host.Outcome State Fault Refusal := perform (dec16 .bc) s

/-- `INC DE` (rule R474). -/
def execInc_DE (s : State) : Host.Outcome State Fault Refusal := perform (inc16 .de) s

/-- `ADD HL,DE` (rule R470). -/
def execAdd_HL_DE (s : State) : Host.Outcome State Fault Refusal := perform (add16 .hl .de) s

/-- `DEC DE` (rule R476). -/
def execDec_DE (s : State) : Host.Outcome State Fault Refusal := perform (dec16 .de) s

/-- `INC HL` (rule R474). -/
def execInc_HL (s : State) : Host.Outcome State Fault Refusal := perform (inc16 .hl) s

/-- `ADD HL,HL` (rule R470). -/
def execAdd_HL_HL (s : State) : Host.Outcome State Fault Refusal := perform (add16 .hl .hl) s

/-- `DEC HL` (rule R476). -/
def execDec_HL (s : State) : Host.Outcome State Fault Refusal := perform (dec16 .hl) s

/-- `INC SP` (rule R474). -/
def execInc_SP (s : State) : Host.Outcome State Fault Refusal := perform (inc16 .sp) s

/-- `ADD HL,SP` (rule R470). -/
def execAdd_HL_SP (s : State) : Host.Outcome State Fault Refusal := perform (add16 .hl .sp) s

/-- `DEC SP` (rule R476). -/
def execDec_SP (s : State) : Host.Outcome State Fault Refusal := perform (dec16 .sp) s

/-- `SBC HL,BC` (rule R473). -/
def execSbc_HL_BC (s : State) : Host.Outcome State Fault Refusal := perform (sbc16 .bc) s

/-- `ADC HL,BC` (rule R472). -/
def execAdc_HL_BC (s : State) : Host.Outcome State Fault Refusal := perform (adc16 .bc) s

/-- `SBC HL,DE` (rule R473). -/
def execSbc_HL_DE (s : State) : Host.Outcome State Fault Refusal := perform (sbc16 .de) s

/-- `ADC HL,DE` (rule R472). -/
def execAdc_HL_DE (s : State) : Host.Outcome State Fault Refusal := perform (adc16 .de) s

/-- `SBC HL,HL` (rule R473). -/
def execSbc_HL_HL (s : State) : Host.Outcome State Fault Refusal := perform (sbc16 .hl) s

/-- `ADC HL,HL` (rule R472). -/
def execAdc_HL_HL (s : State) : Host.Outcome State Fault Refusal := perform (adc16 .hl) s

/-- `SBC HL,SP` (rule R473). -/
def execSbc_HL_SP (s : State) : Host.Outcome State Fault Refusal := perform (sbc16 .sp) s

/-- `ADC HL,SP` (rule R472). -/
def execAdc_HL_SP (s : State) : Host.Outcome State Fault Refusal := perform (adc16 .sp) s

/-- `ADD IX,BC` (rule R471). -/
def execAdd_IX_BC (s : State) : Host.Outcome State Fault Refusal := perform (add16 .ix .bc) s

/-- `ADD IX,DE` (rule R471). -/
def execAdd_IX_DE (s : State) : Host.Outcome State Fault Refusal := perform (add16 .ix .de) s

/-- `INC IX` (rule R475). -/
def execInc_IX (s : State) : Host.Outcome State Fault Refusal := perform (inc16 .ix) s

/-- `ADD IX,IX` (rule R471). -/
def execAdd_IX_IX (s : State) : Host.Outcome State Fault Refusal := perform (add16 .ix .ix) s

/-- `DEC IX` (rule R477). -/
def execDec_IX (s : State) : Host.Outcome State Fault Refusal := perform (dec16 .ix) s

/-- `ADD IX,SP` (rule R471). -/
def execAdd_IX_SP (s : State) : Host.Outcome State Fault Refusal := perform (add16 .ix .sp) s

/-- `ADD IY,BC` (rule R471). -/
def execAdd_IY_BC (s : State) : Host.Outcome State Fault Refusal := perform (add16 .iy .bc) s

/-- `ADD IY,DE` (rule R471). -/
def execAdd_IY_DE (s : State) : Host.Outcome State Fault Refusal := perform (add16 .iy .de) s

/-- `INC IY` (rule R475). -/
def execInc_IY (s : State) : Host.Outcome State Fault Refusal := perform (inc16 .iy) s

/-- `ADD IY,IY` (rule R471). -/
def execAdd_IY_IY (s : State) : Host.Outcome State Fault Refusal := perform (add16 .iy .iy) s

/-- `DEC IY` (rule R477). -/
def execDec_IY (s : State) : Host.Outcome State Fault Refusal := perform (dec16 .iy) s

/-- `ADD IY,SP` (rule R471). -/
def execAdd_IY_SP (s : State) : Host.Outcome State Fault Refusal := perform (add16 .iy .sp) s

end Sys2Proof.Machine
end

