-- ==== Sys2Proof/Machine/Arith8.lean ====
section
/-! DEFINITION. 8-bit arithmetic and logic (43_arith8.md). -/

namespace Sys2Proof.Machine

/-! ## Shared operations -/

/-- The accumulator operations on a source of rule R400 (rules R401 to R408). -/
def alu (op : AluOp) (src : Src8) : M Unit := do
  let s ← source src
  modRegs fun g => g.setAF (aluResult op g.a s g.flags.c)

/-- Rules R410 and R413. -/
def incReg (r : Reg8) : M Unit := modRegs fun g =>
  let (res, k) := inc8 (g.get8 r) g.flags
  (g.set8 r res).setFlags k

/-- Rules R414 and R417. -/
def decReg (r : Reg8) : M Unit := modRegs fun g =>
  let (res, k) := dec8 (g.get8 r) g.flags
  (g.set8 r res).setFlags k

/-- Rules R411 and R412. -/
def incMem (m : Mem8) : M Unit := do
  let ea ← memAddr m
  let v ← mr ea
  internal ea 1
  mw ea (v + 1)
  modRegs fun g => g.setFlags (inc8 v g.flags).2

/-- Rules R415 and R416. -/
def decMem (m : Mem8) : M Unit := do
  let ea ← memAddr m
  let v ← mr ea
  internal ea 1
  mw ea (v - 1)
  modRegs fun g => g.setFlags (dec8 v g.flags).2

/-! ## One meaning per instruction -/

/-- `INC B` (rule R410). -/
def execInc_B (s : State) : Host.Outcome State Fault Refusal := perform (incReg .b) s

/-- `DEC B` (rule R414). -/
def execDec_B (s : State) : Host.Outcome State Fault Refusal := perform (decReg .b) s

/-- `INC C` (rule R410). -/
def execInc_C (s : State) : Host.Outcome State Fault Refusal := perform (incReg .c) s

/-- `DEC C` (rule R414). -/
def execDec_C (s : State) : Host.Outcome State Fault Refusal := perform (decReg .c) s

/-- `INC D` (rule R410). -/
def execInc_D (s : State) : Host.Outcome State Fault Refusal := perform (incReg .d) s

/-- `DEC D` (rule R414). -/
def execDec_D (s : State) : Host.Outcome State Fault Refusal := perform (decReg .d) s

/-- `INC E` (rule R410). -/
def execInc_E (s : State) : Host.Outcome State Fault Refusal := perform (incReg .e) s

/-- `DEC E` (rule R414). -/
def execDec_E (s : State) : Host.Outcome State Fault Refusal := perform (decReg .e) s

/-- `INC H` (rule R410). -/
def execInc_H (s : State) : Host.Outcome State Fault Refusal := perform (incReg .h) s

/-- `DEC H` (rule R414). -/
def execDec_H (s : State) : Host.Outcome State Fault Refusal := perform (decReg .h) s

/-- `INC L` (rule R410). -/
def execInc_L (s : State) : Host.Outcome State Fault Refusal := perform (incReg .l) s

/-- `DEC L` (rule R414). -/
def execDec_L (s : State) : Host.Outcome State Fault Refusal := perform (decReg .l) s

/-- `INC (HL)` (rule R411). -/
def execInc_atHL (s : State) : Host.Outcome State Fault Refusal := perform (incMem .atHL) s

/-- `DEC (HL)` (rule R415). -/
def execDec_atHL (s : State) : Host.Outcome State Fault Refusal := perform (decMem .atHL) s

/-- `INC A` (rule R410). -/
def execInc_A (s : State) : Host.Outcome State Fault Refusal := perform (incReg .a) s

/-- `DEC A` (rule R414). -/
def execDec_A (s : State) : Host.Outcome State Fault Refusal := perform (decReg .a) s

/-- `ADD A,B` (rule R401). -/
def execAdd_A_B (s : State) : Host.Outcome State Fault Refusal := perform (alu .add (.reg .b)) s

/-- `ADD A,C` (rule R401). -/
def execAdd_A_C (s : State) : Host.Outcome State Fault Refusal := perform (alu .add (.reg .c)) s

/-- `ADD A,D` (rule R401). -/
def execAdd_A_D (s : State) : Host.Outcome State Fault Refusal := perform (alu .add (.reg .d)) s

/-- `ADD A,E` (rule R401). -/
def execAdd_A_E (s : State) : Host.Outcome State Fault Refusal := perform (alu .add (.reg .e)) s

/-- `ADD A,H` (rule R401). -/
def execAdd_A_H (s : State) : Host.Outcome State Fault Refusal := perform (alu .add (.reg .h)) s

/-- `ADD A,L` (rule R401). -/
def execAdd_A_L (s : State) : Host.Outcome State Fault Refusal := perform (alu .add (.reg .l)) s

/-- `ADD A,(HL)` (rule R401). -/
def execAdd_A_atHL (s : State) : Host.Outcome State Fault Refusal := perform (alu .add .atHL) s

/-- `ADD A,A` (rule R401). -/
def execAdd_A_A (s : State) : Host.Outcome State Fault Refusal := perform (alu .add (.reg .a)) s

/-- `ADC A,B` (rule R402). -/
def execAdc_A_B (s : State) : Host.Outcome State Fault Refusal := perform (alu .adc (.reg .b)) s

/-- `ADC A,C` (rule R402). -/
def execAdc_A_C (s : State) : Host.Outcome State Fault Refusal := perform (alu .adc (.reg .c)) s

/-- `ADC A,D` (rule R402). -/
def execAdc_A_D (s : State) : Host.Outcome State Fault Refusal := perform (alu .adc (.reg .d)) s

/-- `ADC A,E` (rule R402). -/
def execAdc_A_E (s : State) : Host.Outcome State Fault Refusal := perform (alu .adc (.reg .e)) s

/-- `ADC A,H` (rule R402). -/
def execAdc_A_H (s : State) : Host.Outcome State Fault Refusal := perform (alu .adc (.reg .h)) s

/-- `ADC A,L` (rule R402). -/
def execAdc_A_L (s : State) : Host.Outcome State Fault Refusal := perform (alu .adc (.reg .l)) s

/-- `ADC A,(HL)` (rule R402). -/
def execAdc_A_atHL (s : State) : Host.Outcome State Fault Refusal := perform (alu .adc .atHL) s

/-- `ADC A,A` (rule R402). -/
def execAdc_A_A (s : State) : Host.Outcome State Fault Refusal := perform (alu .adc (.reg .a)) s

/-- `SUB B` (rule R403). -/
def execSub_B (s : State) : Host.Outcome State Fault Refusal := perform (alu .sub (.reg .b)) s

/-- `SUB C` (rule R403). -/
def execSub_C (s : State) : Host.Outcome State Fault Refusal := perform (alu .sub (.reg .c)) s

/-- `SUB D` (rule R403). -/
def execSub_D (s : State) : Host.Outcome State Fault Refusal := perform (alu .sub (.reg .d)) s

/-- `SUB E` (rule R403). -/
def execSub_E (s : State) : Host.Outcome State Fault Refusal := perform (alu .sub (.reg .e)) s

/-- `SUB H` (rule R403). -/
def execSub_H (s : State) : Host.Outcome State Fault Refusal := perform (alu .sub (.reg .h)) s

/-- `SUB L` (rule R403). -/
def execSub_L (s : State) : Host.Outcome State Fault Refusal := perform (alu .sub (.reg .l)) s

/-- `SUB (HL)` (rule R403). -/
def execSub_atHL (s : State) : Host.Outcome State Fault Refusal := perform (alu .sub .atHL) s

/-- `SUB A` (rule R403). -/
def execSub_A (s : State) : Host.Outcome State Fault Refusal := perform (alu .sub (.reg .a)) s

/-- `SBC A,B` (rule R404). -/
def execSbc_A_B (s : State) : Host.Outcome State Fault Refusal := perform (alu .sbc (.reg .b)) s

/-- `SBC A,C` (rule R404). -/
def execSbc_A_C (s : State) : Host.Outcome State Fault Refusal := perform (alu .sbc (.reg .c)) s

/-- `SBC A,D` (rule R404). -/
def execSbc_A_D (s : State) : Host.Outcome State Fault Refusal := perform (alu .sbc (.reg .d)) s

/-- `SBC A,E` (rule R404). -/
def execSbc_A_E (s : State) : Host.Outcome State Fault Refusal := perform (alu .sbc (.reg .e)) s

/-- `SBC A,H` (rule R404). -/
def execSbc_A_H (s : State) : Host.Outcome State Fault Refusal := perform (alu .sbc (.reg .h)) s

/-- `SBC A,L` (rule R404). -/
def execSbc_A_L (s : State) : Host.Outcome State Fault Refusal := perform (alu .sbc (.reg .l)) s

/-- `SBC A,(HL)` (rule R404). -/
def execSbc_A_atHL (s : State) : Host.Outcome State Fault Refusal := perform (alu .sbc .atHL) s

/-- `SBC A,A` (rule R404). -/
def execSbc_A_A (s : State) : Host.Outcome State Fault Refusal := perform (alu .sbc (.reg .a)) s

/-- `AND B` (rule R405). -/
def execAnd_B (s : State) : Host.Outcome State Fault Refusal := perform (alu .and (.reg .b)) s

/-- `AND C` (rule R405). -/
def execAnd_C (s : State) : Host.Outcome State Fault Refusal := perform (alu .and (.reg .c)) s

/-- `AND D` (rule R405). -/
def execAnd_D (s : State) : Host.Outcome State Fault Refusal := perform (alu .and (.reg .d)) s

/-- `AND E` (rule R405). -/
def execAnd_E (s : State) : Host.Outcome State Fault Refusal := perform (alu .and (.reg .e)) s

/-- `AND H` (rule R405). -/
def execAnd_H (s : State) : Host.Outcome State Fault Refusal := perform (alu .and (.reg .h)) s

/-- `AND L` (rule R405). -/
def execAnd_L (s : State) : Host.Outcome State Fault Refusal := perform (alu .and (.reg .l)) s

/-- `AND (HL)` (rule R405). -/
def execAnd_atHL (s : State) : Host.Outcome State Fault Refusal := perform (alu .and .atHL) s

/-- `AND A` (rule R405). -/
def execAnd_A (s : State) : Host.Outcome State Fault Refusal := perform (alu .and (.reg .a)) s

/-- `XOR B` (rule R406). -/
def execXor_B (s : State) : Host.Outcome State Fault Refusal := perform (alu .xor (.reg .b)) s

/-- `XOR C` (rule R406). -/
def execXor_C (s : State) : Host.Outcome State Fault Refusal := perform (alu .xor (.reg .c)) s

/-- `XOR D` (rule R406). -/
def execXor_D (s : State) : Host.Outcome State Fault Refusal := perform (alu .xor (.reg .d)) s

/-- `XOR E` (rule R406). -/
def execXor_E (s : State) : Host.Outcome State Fault Refusal := perform (alu .xor (.reg .e)) s

/-- `XOR H` (rule R406). -/
def execXor_H (s : State) : Host.Outcome State Fault Refusal := perform (alu .xor (.reg .h)) s

/-- `XOR L` (rule R406). -/
def execXor_L (s : State) : Host.Outcome State Fault Refusal := perform (alu .xor (.reg .l)) s

/-- `XOR (HL)` (rule R406). -/
def execXor_atHL (s : State) : Host.Outcome State Fault Refusal := perform (alu .xor .atHL) s

/-- `XOR A` (rule R406). -/
def execXor_A (s : State) : Host.Outcome State Fault Refusal := perform (alu .xor (.reg .a)) s

/-- `OR B` (rule R407). -/
def execOr_B (s : State) : Host.Outcome State Fault Refusal := perform (alu .or (.reg .b)) s

/-- `OR C` (rule R407). -/
def execOr_C (s : State) : Host.Outcome State Fault Refusal := perform (alu .or (.reg .c)) s

/-- `OR D` (rule R407). -/
def execOr_D (s : State) : Host.Outcome State Fault Refusal := perform (alu .or (.reg .d)) s

/-- `OR E` (rule R407). -/
def execOr_E (s : State) : Host.Outcome State Fault Refusal := perform (alu .or (.reg .e)) s

/-- `OR H` (rule R407). -/
def execOr_H (s : State) : Host.Outcome State Fault Refusal := perform (alu .or (.reg .h)) s

/-- `OR L` (rule R407). -/
def execOr_L (s : State) : Host.Outcome State Fault Refusal := perform (alu .or (.reg .l)) s

/-- `OR (HL)` (rule R407). -/
def execOr_atHL (s : State) : Host.Outcome State Fault Refusal := perform (alu .or .atHL) s

/-- `OR A` (rule R407). -/
def execOr_A (s : State) : Host.Outcome State Fault Refusal := perform (alu .or (.reg .a)) s

/-- `CP B` (rule R408). -/
def execCp_B (s : State) : Host.Outcome State Fault Refusal := perform (alu .cp (.reg .b)) s

/-- `CP C` (rule R408). -/
def execCp_C (s : State) : Host.Outcome State Fault Refusal := perform (alu .cp (.reg .c)) s

/-- `CP D` (rule R408). -/
def execCp_D (s : State) : Host.Outcome State Fault Refusal := perform (alu .cp (.reg .d)) s

/-- `CP E` (rule R408). -/
def execCp_E (s : State) : Host.Outcome State Fault Refusal := perform (alu .cp (.reg .e)) s

/-- `CP H` (rule R408). -/
def execCp_H (s : State) : Host.Outcome State Fault Refusal := perform (alu .cp (.reg .h)) s

/-- `CP L` (rule R408). -/
def execCp_L (s : State) : Host.Outcome State Fault Refusal := perform (alu .cp (.reg .l)) s

/-- `CP (HL)` (rule R408). -/
def execCp_atHL (s : State) : Host.Outcome State Fault Refusal := perform (alu .cp .atHL) s

/-- `CP A` (rule R408). -/
def execCp_A (s : State) : Host.Outcome State Fault Refusal := perform (alu .cp (.reg .a)) s

/-- `ADD A,n` (rule R401). -/
def execAdd_A_n (n : Byte) (s : State) : Host.Outcome State Fault Refusal := perform (alu .add (.imm n)) s

/-- `ADC A,n` (rule R402). -/
def execAdc_A_n (n : Byte) (s : State) : Host.Outcome State Fault Refusal := perform (alu .adc (.imm n)) s

/-- `SUB n` (rule R403). -/
def execSub_n (n : Byte) (s : State) : Host.Outcome State Fault Refusal := perform (alu .sub (.imm n)) s

/-- `SBC A,n` (rule R404). -/
def execSbc_A_n (n : Byte) (s : State) : Host.Outcome State Fault Refusal := perform (alu .sbc (.imm n)) s

/-- `AND n` (rule R405). -/
def execAnd_n (n : Byte) (s : State) : Host.Outcome State Fault Refusal := perform (alu .and (.imm n)) s

/-- `XOR n` (rule R406). -/
def execXor_n (n : Byte) (s : State) : Host.Outcome State Fault Refusal := perform (alu .xor (.imm n)) s

/-- `OR n` (rule R407). -/
def execOr_n (n : Byte) (s : State) : Host.Outcome State Fault Refusal := perform (alu .or (.imm n)) s

/-- `CP n` (rule R408). -/
def execCp_n (n : Byte) (s : State) : Host.Outcome State Fault Refusal := perform (alu .cp (.imm n)) s

/-- `INC IXH` (rule R413). -/
def execInc_IXH (s : State) : Host.Outcome State Fault Refusal := perform (incReg .ixh) s

/-- `DEC IXH` (rule R417). -/
def execDec_IXH (s : State) : Host.Outcome State Fault Refusal := perform (decReg .ixh) s

/-- `INC IXL` (rule R413). -/
def execInc_IXL (s : State) : Host.Outcome State Fault Refusal := perform (incReg .ixl) s

/-- `DEC IXL` (rule R417). -/
def execDec_IXL (s : State) : Host.Outcome State Fault Refusal := perform (decReg .ixl) s

/-- `INC (IX+d)` (rule R412). -/
def execInc_atIXd (d : Byte) (s : State) : Host.Outcome State Fault Refusal := perform (incMem (.atIdx .ix d)) s

/-- `DEC (IX+d)` (rule R416). -/
def execDec_atIXd (d : Byte) (s : State) : Host.Outcome State Fault Refusal := perform (decMem (.atIdx .ix d)) s

/-- `ADD A,IXH` (rule R401). -/
def execAdd_A_IXH (s : State) : Host.Outcome State Fault Refusal := perform (alu .add (.reg .ixh)) s

/-- `ADD A,IXL` (rule R401). -/
def execAdd_A_IXL (s : State) : Host.Outcome State Fault Refusal := perform (alu .add (.reg .ixl)) s

/-- `ADD A,(IX+d)` (rule R401). -/
def execAdd_A_atIXd (d : Byte) (s : State) : Host.Outcome State Fault Refusal := perform (alu .add (.atIdx .ix d)) s

/-- `ADC A,IXH` (rule R402). -/
def execAdc_A_IXH (s : State) : Host.Outcome State Fault Refusal := perform (alu .adc (.reg .ixh)) s

/-- `ADC A,IXL` (rule R402). -/
def execAdc_A_IXL (s : State) : Host.Outcome State Fault Refusal := perform (alu .adc (.reg .ixl)) s

/-- `ADC A,(IX+d)` (rule R402). -/
def execAdc_A_atIXd (d : Byte) (s : State) : Host.Outcome State Fault Refusal := perform (alu .adc (.atIdx .ix d)) s

/-- `SUB IXH` (rule R403). -/
def execSub_IXH (s : State) : Host.Outcome State Fault Refusal := perform (alu .sub (.reg .ixh)) s

/-- `SUB IXL` (rule R403). -/
def execSub_IXL (s : State) : Host.Outcome State Fault Refusal := perform (alu .sub (.reg .ixl)) s

/-- `SUB (IX+d)` (rule R403). -/
def execSub_atIXd (d : Byte) (s : State) : Host.Outcome State Fault Refusal := perform (alu .sub (.atIdx .ix d)) s

/-- `SBC A,IXH` (rule R404). -/
def execSbc_A_IXH (s : State) : Host.Outcome State Fault Refusal := perform (alu .sbc (.reg .ixh)) s

/-- `SBC A,IXL` (rule R404). -/
def execSbc_A_IXL (s : State) : Host.Outcome State Fault Refusal := perform (alu .sbc (.reg .ixl)) s

/-- `SBC A,(IX+d)` (rule R404). -/
def execSbc_A_atIXd (d : Byte) (s : State) : Host.Outcome State Fault Refusal := perform (alu .sbc (.atIdx .ix d)) s

/-- `AND IXH` (rule R405). -/
def execAnd_IXH (s : State) : Host.Outcome State Fault Refusal := perform (alu .and (.reg .ixh)) s

/-- `AND IXL` (rule R405). -/
def execAnd_IXL (s : State) : Host.Outcome State Fault Refusal := perform (alu .and (.reg .ixl)) s

/-- `AND (IX+d)` (rule R405). -/
def execAnd_atIXd (d : Byte) (s : State) : Host.Outcome State Fault Refusal := perform (alu .and (.atIdx .ix d)) s

/-- `XOR IXH` (rule R406). -/
def execXor_IXH (s : State) : Host.Outcome State Fault Refusal := perform (alu .xor (.reg .ixh)) s

/-- `XOR IXL` (rule R406). -/
def execXor_IXL (s : State) : Host.Outcome State Fault Refusal := perform (alu .xor (.reg .ixl)) s

/-- `XOR (IX+d)` (rule R406). -/
def execXor_atIXd (d : Byte) (s : State) : Host.Outcome State Fault Refusal := perform (alu .xor (.atIdx .ix d)) s

/-- `OR IXH` (rule R407). -/
def execOr_IXH (s : State) : Host.Outcome State Fault Refusal := perform (alu .or (.reg .ixh)) s

/-- `OR IXL` (rule R407). -/
def execOr_IXL (s : State) : Host.Outcome State Fault Refusal := perform (alu .or (.reg .ixl)) s

/-- `OR (IX+d)` (rule R407). -/
def execOr_atIXd (d : Byte) (s : State) : Host.Outcome State Fault Refusal := perform (alu .or (.atIdx .ix d)) s

/-- `CP IXH` (rule R408). -/
def execCp_IXH (s : State) : Host.Outcome State Fault Refusal := perform (alu .cp (.reg .ixh)) s

/-- `CP IXL` (rule R408). -/
def execCp_IXL (s : State) : Host.Outcome State Fault Refusal := perform (alu .cp (.reg .ixl)) s

/-- `CP (IX+d)` (rule R408). -/
def execCp_atIXd (d : Byte) (s : State) : Host.Outcome State Fault Refusal := perform (alu .cp (.atIdx .ix d)) s

/-- `INC IYH` (rule R413). -/
def execInc_IYH (s : State) : Host.Outcome State Fault Refusal := perform (incReg .iyh) s

/-- `DEC IYH` (rule R417). -/
def execDec_IYH (s : State) : Host.Outcome State Fault Refusal := perform (decReg .iyh) s

/-- `INC IYL` (rule R413). -/
def execInc_IYL (s : State) : Host.Outcome State Fault Refusal := perform (incReg .iyl) s

/-- `DEC IYL` (rule R417). -/
def execDec_IYL (s : State) : Host.Outcome State Fault Refusal := perform (decReg .iyl) s

/-- `INC (IY+d)` (rule R412). -/
def execInc_atIYd (d : Byte) (s : State) : Host.Outcome State Fault Refusal := perform (incMem (.atIdx .iy d)) s

/-- `DEC (IY+d)` (rule R416). -/
def execDec_atIYd (d : Byte) (s : State) : Host.Outcome State Fault Refusal := perform (decMem (.atIdx .iy d)) s

/-- `ADD A,IYH` (rule R401). -/
def execAdd_A_IYH (s : State) : Host.Outcome State Fault Refusal := perform (alu .add (.reg .iyh)) s

/-- `ADD A,IYL` (rule R401). -/
def execAdd_A_IYL (s : State) : Host.Outcome State Fault Refusal := perform (alu .add (.reg .iyl)) s

/-- `ADD A,(IY+d)` (rule R401). -/
def execAdd_A_atIYd (d : Byte) (s : State) : Host.Outcome State Fault Refusal := perform (alu .add (.atIdx .iy d)) s

/-- `ADC A,IYH` (rule R402). -/
def execAdc_A_IYH (s : State) : Host.Outcome State Fault Refusal := perform (alu .adc (.reg .iyh)) s

/-- `ADC A,IYL` (rule R402). -/
def execAdc_A_IYL (s : State) : Host.Outcome State Fault Refusal := perform (alu .adc (.reg .iyl)) s

/-- `ADC A,(IY+d)` (rule R402). -/
def execAdc_A_atIYd (d : Byte) (s : State) : Host.Outcome State Fault Refusal := perform (alu .adc (.atIdx .iy d)) s

/-- `SUB IYH` (rule R403). -/
def execSub_IYH (s : State) : Host.Outcome State Fault Refusal := perform (alu .sub (.reg .iyh)) s

/-- `SUB IYL` (rule R403). -/
def execSub_IYL (s : State) : Host.Outcome State Fault Refusal := perform (alu .sub (.reg .iyl)) s

/-- `SUB (IY+d)` (rule R403). -/
def execSub_atIYd (d : Byte) (s : State) : Host.Outcome State Fault Refusal := perform (alu .sub (.atIdx .iy d)) s

/-- `SBC A,IYH` (rule R404). -/
def execSbc_A_IYH (s : State) : Host.Outcome State Fault Refusal := perform (alu .sbc (.reg .iyh)) s

/-- `SBC A,IYL` (rule R404). -/
def execSbc_A_IYL (s : State) : Host.Outcome State Fault Refusal := perform (alu .sbc (.reg .iyl)) s

/-- `SBC A,(IY+d)` (rule R404). -/
def execSbc_A_atIYd (d : Byte) (s : State) : Host.Outcome State Fault Refusal := perform (alu .sbc (.atIdx .iy d)) s

/-- `AND IYH` (rule R405). -/
def execAnd_IYH (s : State) : Host.Outcome State Fault Refusal := perform (alu .and (.reg .iyh)) s

/-- `AND IYL` (rule R405). -/
def execAnd_IYL (s : State) : Host.Outcome State Fault Refusal := perform (alu .and (.reg .iyl)) s

/-- `AND (IY+d)` (rule R405). -/
def execAnd_atIYd (d : Byte) (s : State) : Host.Outcome State Fault Refusal := perform (alu .and (.atIdx .iy d)) s

/-- `XOR IYH` (rule R406). -/
def execXor_IYH (s : State) : Host.Outcome State Fault Refusal := perform (alu .xor (.reg .iyh)) s

/-- `XOR IYL` (rule R406). -/
def execXor_IYL (s : State) : Host.Outcome State Fault Refusal := perform (alu .xor (.reg .iyl)) s

/-- `XOR (IY+d)` (rule R406). -/
def execXor_atIYd (d : Byte) (s : State) : Host.Outcome State Fault Refusal := perform (alu .xor (.atIdx .iy d)) s

/-- `OR IYH` (rule R407). -/
def execOr_IYH (s : State) : Host.Outcome State Fault Refusal := perform (alu .or (.reg .iyh)) s

/-- `OR IYL` (rule R407). -/
def execOr_IYL (s : State) : Host.Outcome State Fault Refusal := perform (alu .or (.reg .iyl)) s

/-- `OR (IY+d)` (rule R407). -/
def execOr_atIYd (d : Byte) (s : State) : Host.Outcome State Fault Refusal := perform (alu .or (.atIdx .iy d)) s

/-- `CP IYH` (rule R408). -/
def execCp_IYH (s : State) : Host.Outcome State Fault Refusal := perform (alu .cp (.reg .iyh)) s

/-- `CP IYL` (rule R408). -/
def execCp_IYL (s : State) : Host.Outcome State Fault Refusal := perform (alu .cp (.reg .iyl)) s

/-- `CP (IY+d)` (rule R408). -/
def execCp_atIYd (d : Byte) (s : State) : Host.Outcome State Fault Refusal := perform (alu .cp (.atIdx .iy d)) s

end Sys2Proof.Machine
end

