-- ==== Sys2Proof/Machine/Rotate.lean ====
section
/-! DEFINITION. Rotates and shifts (46_rotate_shift.md). -/

namespace Sys2Proof.Machine

/-! ## Shared operations -/

/-- The accumulator rotates (rules R490 to R493). -/
def accRotate (op : RotOp) : M Unit := modRegs fun g => g.setAF (accRotResult op g.a g.flags)

/-- The register form of rule R494. -/
def rotReg (op : RotOp) (r : Reg8) : M Unit := modRegs fun g =>
  let (res, k) := rotResult op (g.get8 r) g.flags
  (g.set8 r res).setFlags k

/-- The result of an XCB copy form goes into a register as well (30_encoding.md rule R174). -/
def copyInto (copy : Option R7) (v : Byte) : M Unit :=
  match copy with
  | some r => putReg8 r.reg v
  | none => return ()

/-- The memory forms of rule R494. -/
def rotMem (op : RotOp) (m : Mem8) (copy : Option R7) : M Unit := do
  let ea ← cbAddr m
  let v ← mr ea
  internal ea 1
  let (res, k) := rotResult op v (← theRegs).flags
  mw ea res
  copyInto copy res
  modRegs (·.setFlags k)

/-- Rule R503. -/
def rld : M Unit := do
  let hl ← getReg16 .hl
  let v ← mr hl
  internal hl 4
  let a ← getReg8 .a
  mw hl (v <<< 4 ||| (a &&& 0x0F))
  modRegs fun g =>
    let res := (g.a &&& 0xF0#8) ||| v >>> 4
    { g.setAF (res, szpFlags res g.flags) with wz := hl + 1 }

/-- Rule R504. -/
def rrd : M Unit := do
  let hl ← getReg16 .hl
  let v ← mr hl
  internal hl 4
  let a ← getReg8 .a
  mw hl (a <<< 4 ||| v >>> 4)
  modRegs fun g =>
    let res := (g.a &&& 0xF0#8) ||| (v &&& 0x0F)
    { g.setAF (res, szpFlags res g.flags) with wz := hl + 1 }

/-! ## One meaning per instruction -/

/-- `RLCA` (rule R490). -/
def execRlca (s : State) : Host.Outcome State Fault Refusal := perform (accRotate .rlc) s

/-- `RRCA` (rule R491). -/
def execRrca (s : State) : Host.Outcome State Fault Refusal := perform (accRotate .rrc) s

/-- `RLA` (rule R492). -/
def execRla (s : State) : Host.Outcome State Fault Refusal := perform (accRotate .rl) s

/-- `RRA` (rule R493). -/
def execRra (s : State) : Host.Outcome State Fault Refusal := perform (accRotate .rr) s

/-- `RLC B` (rule R495). -/
def execRlc_B (s : State) : Host.Outcome State Fault Refusal := perform (rotReg .rlc .b) s

/-- `RLC C` (rule R495). -/
def execRlc_C (s : State) : Host.Outcome State Fault Refusal := perform (rotReg .rlc .c) s

/-- `RLC D` (rule R495). -/
def execRlc_D (s : State) : Host.Outcome State Fault Refusal := perform (rotReg .rlc .d) s

/-- `RLC E` (rule R495). -/
def execRlc_E (s : State) : Host.Outcome State Fault Refusal := perform (rotReg .rlc .e) s

/-- `RLC H` (rule R495). -/
def execRlc_H (s : State) : Host.Outcome State Fault Refusal := perform (rotReg .rlc .h) s

/-- `RLC L` (rule R495). -/
def execRlc_L (s : State) : Host.Outcome State Fault Refusal := perform (rotReg .rlc .l) s

/-- `RLC (HL)` (rule R495). -/
def execRlc_atHL (s : State) : Host.Outcome State Fault Refusal := perform (rotMem .rlc .atHL none) s

/-- `RLC A` (rule R495). -/
def execRlc_A (s : State) : Host.Outcome State Fault Refusal := perform (rotReg .rlc .a) s

/-- `RRC B` (rule R496). -/
def execRrc_B (s : State) : Host.Outcome State Fault Refusal := perform (rotReg .rrc .b) s

/-- `RRC C` (rule R496). -/
def execRrc_C (s : State) : Host.Outcome State Fault Refusal := perform (rotReg .rrc .c) s

/-- `RRC D` (rule R496). -/
def execRrc_D (s : State) : Host.Outcome State Fault Refusal := perform (rotReg .rrc .d) s

/-- `RRC E` (rule R496). -/
def execRrc_E (s : State) : Host.Outcome State Fault Refusal := perform (rotReg .rrc .e) s

/-- `RRC H` (rule R496). -/
def execRrc_H (s : State) : Host.Outcome State Fault Refusal := perform (rotReg .rrc .h) s

/-- `RRC L` (rule R496). -/
def execRrc_L (s : State) : Host.Outcome State Fault Refusal := perform (rotReg .rrc .l) s

/-- `RRC (HL)` (rule R496). -/
def execRrc_atHL (s : State) : Host.Outcome State Fault Refusal := perform (rotMem .rrc .atHL none) s

/-- `RRC A` (rule R496). -/
def execRrc_A (s : State) : Host.Outcome State Fault Refusal := perform (rotReg .rrc .a) s

/-- `RL B` (rule R497). -/
def execRl_B (s : State) : Host.Outcome State Fault Refusal := perform (rotReg .rl .b) s

/-- `RL C` (rule R497). -/
def execRl_C (s : State) : Host.Outcome State Fault Refusal := perform (rotReg .rl .c) s

/-- `RL D` (rule R497). -/
def execRl_D (s : State) : Host.Outcome State Fault Refusal := perform (rotReg .rl .d) s

/-- `RL E` (rule R497). -/
def execRl_E (s : State) : Host.Outcome State Fault Refusal := perform (rotReg .rl .e) s

/-- `RL H` (rule R497). -/
def execRl_H (s : State) : Host.Outcome State Fault Refusal := perform (rotReg .rl .h) s

/-- `RL L` (rule R497). -/
def execRl_L (s : State) : Host.Outcome State Fault Refusal := perform (rotReg .rl .l) s

/-- `RL (HL)` (rule R497). -/
def execRl_atHL (s : State) : Host.Outcome State Fault Refusal := perform (rotMem .rl .atHL none) s

/-- `RL A` (rule R497). -/
def execRl_A (s : State) : Host.Outcome State Fault Refusal := perform (rotReg .rl .a) s

/-- `RR B` (rule R498). -/
def execRr_B (s : State) : Host.Outcome State Fault Refusal := perform (rotReg .rr .b) s

/-- `RR C` (rule R498). -/
def execRr_C (s : State) : Host.Outcome State Fault Refusal := perform (rotReg .rr .c) s

/-- `RR D` (rule R498). -/
def execRr_D (s : State) : Host.Outcome State Fault Refusal := perform (rotReg .rr .d) s

/-- `RR E` (rule R498). -/
def execRr_E (s : State) : Host.Outcome State Fault Refusal := perform (rotReg .rr .e) s

/-- `RR H` (rule R498). -/
def execRr_H (s : State) : Host.Outcome State Fault Refusal := perform (rotReg .rr .h) s

/-- `RR L` (rule R498). -/
def execRr_L (s : State) : Host.Outcome State Fault Refusal := perform (rotReg .rr .l) s

/-- `RR (HL)` (rule R498). -/
def execRr_atHL (s : State) : Host.Outcome State Fault Refusal := perform (rotMem .rr .atHL none) s

/-- `RR A` (rule R498). -/
def execRr_A (s : State) : Host.Outcome State Fault Refusal := perform (rotReg .rr .a) s

/-- `SLA B` (rule R499). -/
def execSla_B (s : State) : Host.Outcome State Fault Refusal := perform (rotReg .sla .b) s

/-- `SLA C` (rule R499). -/
def execSla_C (s : State) : Host.Outcome State Fault Refusal := perform (rotReg .sla .c) s

/-- `SLA D` (rule R499). -/
def execSla_D (s : State) : Host.Outcome State Fault Refusal := perform (rotReg .sla .d) s

/-- `SLA E` (rule R499). -/
def execSla_E (s : State) : Host.Outcome State Fault Refusal := perform (rotReg .sla .e) s

/-- `SLA H` (rule R499). -/
def execSla_H (s : State) : Host.Outcome State Fault Refusal := perform (rotReg .sla .h) s

/-- `SLA L` (rule R499). -/
def execSla_L (s : State) : Host.Outcome State Fault Refusal := perform (rotReg .sla .l) s

/-- `SLA (HL)` (rule R499). -/
def execSla_atHL (s : State) : Host.Outcome State Fault Refusal := perform (rotMem .sla .atHL none) s

/-- `SLA A` (rule R499). -/
def execSla_A (s : State) : Host.Outcome State Fault Refusal := perform (rotReg .sla .a) s

/-- `SRA B` (rule R500). -/
def execSra_B (s : State) : Host.Outcome State Fault Refusal := perform (rotReg .sra .b) s

/-- `SRA C` (rule R500). -/
def execSra_C (s : State) : Host.Outcome State Fault Refusal := perform (rotReg .sra .c) s

/-- `SRA D` (rule R500). -/
def execSra_D (s : State) : Host.Outcome State Fault Refusal := perform (rotReg .sra .d) s

/-- `SRA E` (rule R500). -/
def execSra_E (s : State) : Host.Outcome State Fault Refusal := perform (rotReg .sra .e) s

/-- `SRA H` (rule R500). -/
def execSra_H (s : State) : Host.Outcome State Fault Refusal := perform (rotReg .sra .h) s

/-- `SRA L` (rule R500). -/
def execSra_L (s : State) : Host.Outcome State Fault Refusal := perform (rotReg .sra .l) s

/-- `SRA (HL)` (rule R500). -/
def execSra_atHL (s : State) : Host.Outcome State Fault Refusal := perform (rotMem .sra .atHL none) s

/-- `SRA A` (rule R500). -/
def execSra_A (s : State) : Host.Outcome State Fault Refusal := perform (rotReg .sra .a) s

/-- `SLL B` (rule R501). -/
def execSll_B (s : State) : Host.Outcome State Fault Refusal := perform (rotReg .sll .b) s

/-- `SLL C` (rule R501). -/
def execSll_C (s : State) : Host.Outcome State Fault Refusal := perform (rotReg .sll .c) s

/-- `SLL D` (rule R501). -/
def execSll_D (s : State) : Host.Outcome State Fault Refusal := perform (rotReg .sll .d) s

/-- `SLL E` (rule R501). -/
def execSll_E (s : State) : Host.Outcome State Fault Refusal := perform (rotReg .sll .e) s

/-- `SLL H` (rule R501). -/
def execSll_H (s : State) : Host.Outcome State Fault Refusal := perform (rotReg .sll .h) s

/-- `SLL L` (rule R501). -/
def execSll_L (s : State) : Host.Outcome State Fault Refusal := perform (rotReg .sll .l) s

/-- `SLL (HL)` (rule R501). -/
def execSll_atHL (s : State) : Host.Outcome State Fault Refusal := perform (rotMem .sll .atHL none) s

/-- `SLL A` (rule R501). -/
def execSll_A (s : State) : Host.Outcome State Fault Refusal := perform (rotReg .sll .a) s

/-- `SRL B` (rule R502). -/
def execSrl_B (s : State) : Host.Outcome State Fault Refusal := perform (rotReg .srl .b) s

/-- `SRL C` (rule R502). -/
def execSrl_C (s : State) : Host.Outcome State Fault Refusal := perform (rotReg .srl .c) s

/-- `SRL D` (rule R502). -/
def execSrl_D (s : State) : Host.Outcome State Fault Refusal := perform (rotReg .srl .d) s

/-- `SRL E` (rule R502). -/
def execSrl_E (s : State) : Host.Outcome State Fault Refusal := perform (rotReg .srl .e) s

/-- `SRL H` (rule R502). -/
def execSrl_H (s : State) : Host.Outcome State Fault Refusal := perform (rotReg .srl .h) s

/-- `SRL L` (rule R502). -/
def execSrl_L (s : State) : Host.Outcome State Fault Refusal := perform (rotReg .srl .l) s

/-- `SRL (HL)` (rule R502). -/
def execSrl_atHL (s : State) : Host.Outcome State Fault Refusal := perform (rotMem .srl .atHL none) s

/-- `SRL A` (rule R502). -/
def execSrl_A (s : State) : Host.Outcome State Fault Refusal := perform (rotReg .srl .a) s

/-- `RRD` (rule R504). -/
def execRrd (s : State) : Host.Outcome State Fault Refusal := perform rrd s

/-- `RLD` (rule R503). -/
def execRld (s : State) : Host.Outcome State Fault Refusal := perform rld s

/-- `RLC (IX+d),B` (rule R495). -/
def execRlc_atIXd_B (d : Byte) (s : State) : Host.Outcome State Fault Refusal := perform (rotMem .rlc (.atIdx .ix d) (some .b)) s

/-- `RLC (IX+d),C` (rule R495). -/
def execRlc_atIXd_C (d : Byte) (s : State) : Host.Outcome State Fault Refusal := perform (rotMem .rlc (.atIdx .ix d) (some .c)) s

/-- `RLC (IX+d),D` (rule R495). -/
def execRlc_atIXd_D (d : Byte) (s : State) : Host.Outcome State Fault Refusal := perform (rotMem .rlc (.atIdx .ix d) (some .d)) s

/-- `RLC (IX+d),E` (rule R495). -/
def execRlc_atIXd_E (d : Byte) (s : State) : Host.Outcome State Fault Refusal := perform (rotMem .rlc (.atIdx .ix d) (some .e)) s

/-- `RLC (IX+d),H` (rule R495). -/
def execRlc_atIXd_H (d : Byte) (s : State) : Host.Outcome State Fault Refusal := perform (rotMem .rlc (.atIdx .ix d) (some .h)) s

/-- `RLC (IX+d),L` (rule R495). -/
def execRlc_atIXd_L (d : Byte) (s : State) : Host.Outcome State Fault Refusal := perform (rotMem .rlc (.atIdx .ix d) (some .l)) s

/-- `RLC (IX+d)` (rule R495). -/
def execRlc_atIXd (d : Byte) (s : State) : Host.Outcome State Fault Refusal := perform (rotMem .rlc (.atIdx .ix d) none) s

/-- `RLC (IX+d),A` (rule R495). -/
def execRlc_atIXd_A (d : Byte) (s : State) : Host.Outcome State Fault Refusal := perform (rotMem .rlc (.atIdx .ix d) (some .a)) s

/-- `RRC (IX+d),B` (rule R496). -/
def execRrc_atIXd_B (d : Byte) (s : State) : Host.Outcome State Fault Refusal := perform (rotMem .rrc (.atIdx .ix d) (some .b)) s

/-- `RRC (IX+d),C` (rule R496). -/
def execRrc_atIXd_C (d : Byte) (s : State) : Host.Outcome State Fault Refusal := perform (rotMem .rrc (.atIdx .ix d) (some .c)) s

/-- `RRC (IX+d),D` (rule R496). -/
def execRrc_atIXd_D (d : Byte) (s : State) : Host.Outcome State Fault Refusal := perform (rotMem .rrc (.atIdx .ix d) (some .d)) s

/-- `RRC (IX+d),E` (rule R496). -/
def execRrc_atIXd_E (d : Byte) (s : State) : Host.Outcome State Fault Refusal := perform (rotMem .rrc (.atIdx .ix d) (some .e)) s

/-- `RRC (IX+d),H` (rule R496). -/
def execRrc_atIXd_H (d : Byte) (s : State) : Host.Outcome State Fault Refusal := perform (rotMem .rrc (.atIdx .ix d) (some .h)) s

/-- `RRC (IX+d),L` (rule R496). -/
def execRrc_atIXd_L (d : Byte) (s : State) : Host.Outcome State Fault Refusal := perform (rotMem .rrc (.atIdx .ix d) (some .l)) s

/-- `RRC (IX+d)` (rule R496). -/
def execRrc_atIXd (d : Byte) (s : State) : Host.Outcome State Fault Refusal := perform (rotMem .rrc (.atIdx .ix d) none) s

/-- `RRC (IX+d),A` (rule R496). -/
def execRrc_atIXd_A (d : Byte) (s : State) : Host.Outcome State Fault Refusal := perform (rotMem .rrc (.atIdx .ix d) (some .a)) s

/-- `RL (IX+d),B` (rule R497). -/
def execRl_atIXd_B (d : Byte) (s : State) : Host.Outcome State Fault Refusal := perform (rotMem .rl (.atIdx .ix d) (some .b)) s

/-- `RL (IX+d),C` (rule R497). -/
def execRl_atIXd_C (d : Byte) (s : State) : Host.Outcome State Fault Refusal := perform (rotMem .rl (.atIdx .ix d) (some .c)) s

/-- `RL (IX+d),D` (rule R497). -/
def execRl_atIXd_D (d : Byte) (s : State) : Host.Outcome State Fault Refusal := perform (rotMem .rl (.atIdx .ix d) (some .d)) s

/-- `RL (IX+d),E` (rule R497). -/
def execRl_atIXd_E (d : Byte) (s : State) : Host.Outcome State Fault Refusal := perform (rotMem .rl (.atIdx .ix d) (some .e)) s

/-- `RL (IX+d),H` (rule R497). -/
def execRl_atIXd_H (d : Byte) (s : State) : Host.Outcome State Fault Refusal := perform (rotMem .rl (.atIdx .ix d) (some .h)) s

/-- `RL (IX+d),L` (rule R497). -/
def execRl_atIXd_L (d : Byte) (s : State) : Host.Outcome State Fault Refusal := perform (rotMem .rl (.atIdx .ix d) (some .l)) s

/-- `RL (IX+d)` (rule R497). -/
def execRl_atIXd (d : Byte) (s : State) : Host.Outcome State Fault Refusal := perform (rotMem .rl (.atIdx .ix d) none) s

/-- `RL (IX+d),A` (rule R497). -/
def execRl_atIXd_A (d : Byte) (s : State) : Host.Outcome State Fault Refusal := perform (rotMem .rl (.atIdx .ix d) (some .a)) s

/-- `RR (IX+d),B` (rule R498). -/
def execRr_atIXd_B (d : Byte) (s : State) : Host.Outcome State Fault Refusal := perform (rotMem .rr (.atIdx .ix d) (some .b)) s

/-- `RR (IX+d),C` (rule R498). -/
def execRr_atIXd_C (d : Byte) (s : State) : Host.Outcome State Fault Refusal := perform (rotMem .rr (.atIdx .ix d) (some .c)) s

/-- `RR (IX+d),D` (rule R498). -/
def execRr_atIXd_D (d : Byte) (s : State) : Host.Outcome State Fault Refusal := perform (rotMem .rr (.atIdx .ix d) (some .d)) s

/-- `RR (IX+d),E` (rule R498). -/
def execRr_atIXd_E (d : Byte) (s : State) : Host.Outcome State Fault Refusal := perform (rotMem .rr (.atIdx .ix d) (some .e)) s

/-- `RR (IX+d),H` (rule R498). -/
def execRr_atIXd_H (d : Byte) (s : State) : Host.Outcome State Fault Refusal := perform (rotMem .rr (.atIdx .ix d) (some .h)) s

/-- `RR (IX+d),L` (rule R498). -/
def execRr_atIXd_L (d : Byte) (s : State) : Host.Outcome State Fault Refusal := perform (rotMem .rr (.atIdx .ix d) (some .l)) s

/-- `RR (IX+d)` (rule R498). -/
def execRr_atIXd (d : Byte) (s : State) : Host.Outcome State Fault Refusal := perform (rotMem .rr (.atIdx .ix d) none) s

/-- `RR (IX+d),A` (rule R498). -/
def execRr_atIXd_A (d : Byte) (s : State) : Host.Outcome State Fault Refusal := perform (rotMem .rr (.atIdx .ix d) (some .a)) s

/-- `SLA (IX+d),B` (rule R499). -/
def execSla_atIXd_B (d : Byte) (s : State) : Host.Outcome State Fault Refusal := perform (rotMem .sla (.atIdx .ix d) (some .b)) s

/-- `SLA (IX+d),C` (rule R499). -/
def execSla_atIXd_C (d : Byte) (s : State) : Host.Outcome State Fault Refusal := perform (rotMem .sla (.atIdx .ix d) (some .c)) s

/-- `SLA (IX+d),D` (rule R499). -/
def execSla_atIXd_D (d : Byte) (s : State) : Host.Outcome State Fault Refusal := perform (rotMem .sla (.atIdx .ix d) (some .d)) s

/-- `SLA (IX+d),E` (rule R499). -/
def execSla_atIXd_E (d : Byte) (s : State) : Host.Outcome State Fault Refusal := perform (rotMem .sla (.atIdx .ix d) (some .e)) s

/-- `SLA (IX+d),H` (rule R499). -/
def execSla_atIXd_H (d : Byte) (s : State) : Host.Outcome State Fault Refusal := perform (rotMem .sla (.atIdx .ix d) (some .h)) s

/-- `SLA (IX+d),L` (rule R499). -/
def execSla_atIXd_L (d : Byte) (s : State) : Host.Outcome State Fault Refusal := perform (rotMem .sla (.atIdx .ix d) (some .l)) s

/-- `SLA (IX+d)` (rule R499). -/
def execSla_atIXd (d : Byte) (s : State) : Host.Outcome State Fault Refusal := perform (rotMem .sla (.atIdx .ix d) none) s

/-- `SLA (IX+d),A` (rule R499). -/
def execSla_atIXd_A (d : Byte) (s : State) : Host.Outcome State Fault Refusal := perform (rotMem .sla (.atIdx .ix d) (some .a)) s

/-- `SRA (IX+d),B` (rule R500). -/
def execSra_atIXd_B (d : Byte) (s : State) : Host.Outcome State Fault Refusal := perform (rotMem .sra (.atIdx .ix d) (some .b)) s

/-- `SRA (IX+d),C` (rule R500). -/
def execSra_atIXd_C (d : Byte) (s : State) : Host.Outcome State Fault Refusal := perform (rotMem .sra (.atIdx .ix d) (some .c)) s

/-- `SRA (IX+d),D` (rule R500). -/
def execSra_atIXd_D (d : Byte) (s : State) : Host.Outcome State Fault Refusal := perform (rotMem .sra (.atIdx .ix d) (some .d)) s

/-- `SRA (IX+d),E` (rule R500). -/
def execSra_atIXd_E (d : Byte) (s : State) : Host.Outcome State Fault Refusal := perform (rotMem .sra (.atIdx .ix d) (some .e)) s

/-- `SRA (IX+d),H` (rule R500). -/
def execSra_atIXd_H (d : Byte) (s : State) : Host.Outcome State Fault Refusal := perform (rotMem .sra (.atIdx .ix d) (some .h)) s

/-- `SRA (IX+d),L` (rule R500). -/
def execSra_atIXd_L (d : Byte) (s : State) : Host.Outcome State Fault Refusal := perform (rotMem .sra (.atIdx .ix d) (some .l)) s

/-- `SRA (IX+d)` (rule R500). -/
def execSra_atIXd (d : Byte) (s : State) : Host.Outcome State Fault Refusal := perform (rotMem .sra (.atIdx .ix d) none) s

/-- `SRA (IX+d),A` (rule R500). -/
def execSra_atIXd_A (d : Byte) (s : State) : Host.Outcome State Fault Refusal := perform (rotMem .sra (.atIdx .ix d) (some .a)) s

/-- `SLL (IX+d),B` (rule R501). -/
def execSll_atIXd_B (d : Byte) (s : State) : Host.Outcome State Fault Refusal := perform (rotMem .sll (.atIdx .ix d) (some .b)) s

/-- `SLL (IX+d),C` (rule R501). -/
def execSll_atIXd_C (d : Byte) (s : State) : Host.Outcome State Fault Refusal := perform (rotMem .sll (.atIdx .ix d) (some .c)) s

/-- `SLL (IX+d),D` (rule R501). -/
def execSll_atIXd_D (d : Byte) (s : State) : Host.Outcome State Fault Refusal := perform (rotMem .sll (.atIdx .ix d) (some .d)) s

/-- `SLL (IX+d),E` (rule R501). -/
def execSll_atIXd_E (d : Byte) (s : State) : Host.Outcome State Fault Refusal := perform (rotMem .sll (.atIdx .ix d) (some .e)) s

/-- `SLL (IX+d),H` (rule R501). -/
def execSll_atIXd_H (d : Byte) (s : State) : Host.Outcome State Fault Refusal := perform (rotMem .sll (.atIdx .ix d) (some .h)) s

/-- `SLL (IX+d),L` (rule R501). -/
def execSll_atIXd_L (d : Byte) (s : State) : Host.Outcome State Fault Refusal := perform (rotMem .sll (.atIdx .ix d) (some .l)) s

/-- `SLL (IX+d)` (rule R501). -/
def execSll_atIXd (d : Byte) (s : State) : Host.Outcome State Fault Refusal := perform (rotMem .sll (.atIdx .ix d) none) s

/-- `SLL (IX+d),A` (rule R501). -/
def execSll_atIXd_A (d : Byte) (s : State) : Host.Outcome State Fault Refusal := perform (rotMem .sll (.atIdx .ix d) (some .a)) s

/-- `SRL (IX+d),B` (rule R502). -/
def execSrl_atIXd_B (d : Byte) (s : State) : Host.Outcome State Fault Refusal := perform (rotMem .srl (.atIdx .ix d) (some .b)) s

/-- `SRL (IX+d),C` (rule R502). -/
def execSrl_atIXd_C (d : Byte) (s : State) : Host.Outcome State Fault Refusal := perform (rotMem .srl (.atIdx .ix d) (some .c)) s

/-- `SRL (IX+d),D` (rule R502). -/
def execSrl_atIXd_D (d : Byte) (s : State) : Host.Outcome State Fault Refusal := perform (rotMem .srl (.atIdx .ix d) (some .d)) s

/-- `SRL (IX+d),E` (rule R502). -/
def execSrl_atIXd_E (d : Byte) (s : State) : Host.Outcome State Fault Refusal := perform (rotMem .srl (.atIdx .ix d) (some .e)) s

/-- `SRL (IX+d),H` (rule R502). -/
def execSrl_atIXd_H (d : Byte) (s : State) : Host.Outcome State Fault Refusal := perform (rotMem .srl (.atIdx .ix d) (some .h)) s

/-- `SRL (IX+d),L` (rule R502). -/
def execSrl_atIXd_L (d : Byte) (s : State) : Host.Outcome State Fault Refusal := perform (rotMem .srl (.atIdx .ix d) (some .l)) s

/-- `SRL (IX+d)` (rule R502). -/
def execSrl_atIXd (d : Byte) (s : State) : Host.Outcome State Fault Refusal := perform (rotMem .srl (.atIdx .ix d) none) s

/-- `SRL (IX+d),A` (rule R502). -/
def execSrl_atIXd_A (d : Byte) (s : State) : Host.Outcome State Fault Refusal := perform (rotMem .srl (.atIdx .ix d) (some .a)) s

/-- `RLC (IY+d),B` (rule R495). -/
def execRlc_atIYd_B (d : Byte) (s : State) : Host.Outcome State Fault Refusal := perform (rotMem .rlc (.atIdx .iy d) (some .b)) s

/-- `RLC (IY+d),C` (rule R495). -/
def execRlc_atIYd_C (d : Byte) (s : State) : Host.Outcome State Fault Refusal := perform (rotMem .rlc (.atIdx .iy d) (some .c)) s

/-- `RLC (IY+d),D` (rule R495). -/
def execRlc_atIYd_D (d : Byte) (s : State) : Host.Outcome State Fault Refusal := perform (rotMem .rlc (.atIdx .iy d) (some .d)) s

/-- `RLC (IY+d),E` (rule R495). -/
def execRlc_atIYd_E (d : Byte) (s : State) : Host.Outcome State Fault Refusal := perform (rotMem .rlc (.atIdx .iy d) (some .e)) s

/-- `RLC (IY+d),H` (rule R495). -/
def execRlc_atIYd_H (d : Byte) (s : State) : Host.Outcome State Fault Refusal := perform (rotMem .rlc (.atIdx .iy d) (some .h)) s

/-- `RLC (IY+d),L` (rule R495). -/
def execRlc_atIYd_L (d : Byte) (s : State) : Host.Outcome State Fault Refusal := perform (rotMem .rlc (.atIdx .iy d) (some .l)) s

/-- `RLC (IY+d)` (rule R495). -/
def execRlc_atIYd (d : Byte) (s : State) : Host.Outcome State Fault Refusal := perform (rotMem .rlc (.atIdx .iy d) none) s

/-- `RLC (IY+d),A` (rule R495). -/
def execRlc_atIYd_A (d : Byte) (s : State) : Host.Outcome State Fault Refusal := perform (rotMem .rlc (.atIdx .iy d) (some .a)) s

/-- `RRC (IY+d),B` (rule R496). -/
def execRrc_atIYd_B (d : Byte) (s : State) : Host.Outcome State Fault Refusal := perform (rotMem .rrc (.atIdx .iy d) (some .b)) s

/-- `RRC (IY+d),C` (rule R496). -/
def execRrc_atIYd_C (d : Byte) (s : State) : Host.Outcome State Fault Refusal := perform (rotMem .rrc (.atIdx .iy d) (some .c)) s

/-- `RRC (IY+d),D` (rule R496). -/
def execRrc_atIYd_D (d : Byte) (s : State) : Host.Outcome State Fault Refusal := perform (rotMem .rrc (.atIdx .iy d) (some .d)) s

/-- `RRC (IY+d),E` (rule R496). -/
def execRrc_atIYd_E (d : Byte) (s : State) : Host.Outcome State Fault Refusal := perform (rotMem .rrc (.atIdx .iy d) (some .e)) s

/-- `RRC (IY+d),H` (rule R496). -/
def execRrc_atIYd_H (d : Byte) (s : State) : Host.Outcome State Fault Refusal := perform (rotMem .rrc (.atIdx .iy d) (some .h)) s

/-- `RRC (IY+d),L` (rule R496). -/
def execRrc_atIYd_L (d : Byte) (s : State) : Host.Outcome State Fault Refusal := perform (rotMem .rrc (.atIdx .iy d) (some .l)) s

/-- `RRC (IY+d)` (rule R496). -/
def execRrc_atIYd (d : Byte) (s : State) : Host.Outcome State Fault Refusal := perform (rotMem .rrc (.atIdx .iy d) none) s

/-- `RRC (IY+d),A` (rule R496). -/
def execRrc_atIYd_A (d : Byte) (s : State) : Host.Outcome State Fault Refusal := perform (rotMem .rrc (.atIdx .iy d) (some .a)) s

/-- `RL (IY+d),B` (rule R497). -/
def execRl_atIYd_B (d : Byte) (s : State) : Host.Outcome State Fault Refusal := perform (rotMem .rl (.atIdx .iy d) (some .b)) s

/-- `RL (IY+d),C` (rule R497). -/
def execRl_atIYd_C (d : Byte) (s : State) : Host.Outcome State Fault Refusal := perform (rotMem .rl (.atIdx .iy d) (some .c)) s

/-- `RL (IY+d),D` (rule R497). -/
def execRl_atIYd_D (d : Byte) (s : State) : Host.Outcome State Fault Refusal := perform (rotMem .rl (.atIdx .iy d) (some .d)) s

/-- `RL (IY+d),E` (rule R497). -/
def execRl_atIYd_E (d : Byte) (s : State) : Host.Outcome State Fault Refusal := perform (rotMem .rl (.atIdx .iy d) (some .e)) s

/-- `RL (IY+d),H` (rule R497). -/
def execRl_atIYd_H (d : Byte) (s : State) : Host.Outcome State Fault Refusal := perform (rotMem .rl (.atIdx .iy d) (some .h)) s

/-- `RL (IY+d),L` (rule R497). -/
def execRl_atIYd_L (d : Byte) (s : State) : Host.Outcome State Fault Refusal := perform (rotMem .rl (.atIdx .iy d) (some .l)) s

/-- `RL (IY+d)` (rule R497). -/
def execRl_atIYd (d : Byte) (s : State) : Host.Outcome State Fault Refusal := perform (rotMem .rl (.atIdx .iy d) none) s

/-- `RL (IY+d),A` (rule R497). -/
def execRl_atIYd_A (d : Byte) (s : State) : Host.Outcome State Fault Refusal := perform (rotMem .rl (.atIdx .iy d) (some .a)) s

/-- `RR (IY+d),B` (rule R498). -/
def execRr_atIYd_B (d : Byte) (s : State) : Host.Outcome State Fault Refusal := perform (rotMem .rr (.atIdx .iy d) (some .b)) s

/-- `RR (IY+d),C` (rule R498). -/
def execRr_atIYd_C (d : Byte) (s : State) : Host.Outcome State Fault Refusal := perform (rotMem .rr (.atIdx .iy d) (some .c)) s

/-- `RR (IY+d),D` (rule R498). -/
def execRr_atIYd_D (d : Byte) (s : State) : Host.Outcome State Fault Refusal := perform (rotMem .rr (.atIdx .iy d) (some .d)) s

/-- `RR (IY+d),E` (rule R498). -/
def execRr_atIYd_E (d : Byte) (s : State) : Host.Outcome State Fault Refusal := perform (rotMem .rr (.atIdx .iy d) (some .e)) s

/-- `RR (IY+d),H` (rule R498). -/
def execRr_atIYd_H (d : Byte) (s : State) : Host.Outcome State Fault Refusal := perform (rotMem .rr (.atIdx .iy d) (some .h)) s

/-- `RR (IY+d),L` (rule R498). -/
def execRr_atIYd_L (d : Byte) (s : State) : Host.Outcome State Fault Refusal := perform (rotMem .rr (.atIdx .iy d) (some .l)) s

/-- `RR (IY+d)` (rule R498). -/
def execRr_atIYd (d : Byte) (s : State) : Host.Outcome State Fault Refusal := perform (rotMem .rr (.atIdx .iy d) none) s

/-- `RR (IY+d),A` (rule R498). -/
def execRr_atIYd_A (d : Byte) (s : State) : Host.Outcome State Fault Refusal := perform (rotMem .rr (.atIdx .iy d) (some .a)) s

/-- `SLA (IY+d),B` (rule R499). -/
def execSla_atIYd_B (d : Byte) (s : State) : Host.Outcome State Fault Refusal := perform (rotMem .sla (.atIdx .iy d) (some .b)) s

/-- `SLA (IY+d),C` (rule R499). -/
def execSla_atIYd_C (d : Byte) (s : State) : Host.Outcome State Fault Refusal := perform (rotMem .sla (.atIdx .iy d) (some .c)) s

/-- `SLA (IY+d),D` (rule R499). -/
def execSla_atIYd_D (d : Byte) (s : State) : Host.Outcome State Fault Refusal := perform (rotMem .sla (.atIdx .iy d) (some .d)) s

/-- `SLA (IY+d),E` (rule R499). -/
def execSla_atIYd_E (d : Byte) (s : State) : Host.Outcome State Fault Refusal := perform (rotMem .sla (.atIdx .iy d) (some .e)) s

/-- `SLA (IY+d),H` (rule R499). -/
def execSla_atIYd_H (d : Byte) (s : State) : Host.Outcome State Fault Refusal := perform (rotMem .sla (.atIdx .iy d) (some .h)) s

/-- `SLA (IY+d),L` (rule R499). -/
def execSla_atIYd_L (d : Byte) (s : State) : Host.Outcome State Fault Refusal := perform (rotMem .sla (.atIdx .iy d) (some .l)) s

/-- `SLA (IY+d)` (rule R499). -/
def execSla_atIYd (d : Byte) (s : State) : Host.Outcome State Fault Refusal := perform (rotMem .sla (.atIdx .iy d) none) s

/-- `SLA (IY+d),A` (rule R499). -/
def execSla_atIYd_A (d : Byte) (s : State) : Host.Outcome State Fault Refusal := perform (rotMem .sla (.atIdx .iy d) (some .a)) s

/-- `SRA (IY+d),B` (rule R500). -/
def execSra_atIYd_B (d : Byte) (s : State) : Host.Outcome State Fault Refusal := perform (rotMem .sra (.atIdx .iy d) (some .b)) s

/-- `SRA (IY+d),C` (rule R500). -/
def execSra_atIYd_C (d : Byte) (s : State) : Host.Outcome State Fault Refusal := perform (rotMem .sra (.atIdx .iy d) (some .c)) s

/-- `SRA (IY+d),D` (rule R500). -/
def execSra_atIYd_D (d : Byte) (s : State) : Host.Outcome State Fault Refusal := perform (rotMem .sra (.atIdx .iy d) (some .d)) s

/-- `SRA (IY+d),E` (rule R500). -/
def execSra_atIYd_E (d : Byte) (s : State) : Host.Outcome State Fault Refusal := perform (rotMem .sra (.atIdx .iy d) (some .e)) s

/-- `SRA (IY+d),H` (rule R500). -/
def execSra_atIYd_H (d : Byte) (s : State) : Host.Outcome State Fault Refusal := perform (rotMem .sra (.atIdx .iy d) (some .h)) s

/-- `SRA (IY+d),L` (rule R500). -/
def execSra_atIYd_L (d : Byte) (s : State) : Host.Outcome State Fault Refusal := perform (rotMem .sra (.atIdx .iy d) (some .l)) s

/-- `SRA (IY+d)` (rule R500). -/
def execSra_atIYd (d : Byte) (s : State) : Host.Outcome State Fault Refusal := perform (rotMem .sra (.atIdx .iy d) none) s

/-- `SRA (IY+d),A` (rule R500). -/
def execSra_atIYd_A (d : Byte) (s : State) : Host.Outcome State Fault Refusal := perform (rotMem .sra (.atIdx .iy d) (some .a)) s

/-- `SLL (IY+d),B` (rule R501). -/
def execSll_atIYd_B (d : Byte) (s : State) : Host.Outcome State Fault Refusal := perform (rotMem .sll (.atIdx .iy d) (some .b)) s

/-- `SLL (IY+d),C` (rule R501). -/
def execSll_atIYd_C (d : Byte) (s : State) : Host.Outcome State Fault Refusal := perform (rotMem .sll (.atIdx .iy d) (some .c)) s

/-- `SLL (IY+d),D` (rule R501). -/
def execSll_atIYd_D (d : Byte) (s : State) : Host.Outcome State Fault Refusal := perform (rotMem .sll (.atIdx .iy d) (some .d)) s

/-- `SLL (IY+d),E` (rule R501). -/
def execSll_atIYd_E (d : Byte) (s : State) : Host.Outcome State Fault Refusal := perform (rotMem .sll (.atIdx .iy d) (some .e)) s

/-- `SLL (IY+d),H` (rule R501). -/
def execSll_atIYd_H (d : Byte) (s : State) : Host.Outcome State Fault Refusal := perform (rotMem .sll (.atIdx .iy d) (some .h)) s

/-- `SLL (IY+d),L` (rule R501). -/
def execSll_atIYd_L (d : Byte) (s : State) : Host.Outcome State Fault Refusal := perform (rotMem .sll (.atIdx .iy d) (some .l)) s

/-- `SLL (IY+d)` (rule R501). -/
def execSll_atIYd (d : Byte) (s : State) : Host.Outcome State Fault Refusal := perform (rotMem .sll (.atIdx .iy d) none) s

/-- `SLL (IY+d),A` (rule R501). -/
def execSll_atIYd_A (d : Byte) (s : State) : Host.Outcome State Fault Refusal := perform (rotMem .sll (.atIdx .iy d) (some .a)) s

/-- `SRL (IY+d),B` (rule R502). -/
def execSrl_atIYd_B (d : Byte) (s : State) : Host.Outcome State Fault Refusal := perform (rotMem .srl (.atIdx .iy d) (some .b)) s

/-- `SRL (IY+d),C` (rule R502). -/
def execSrl_atIYd_C (d : Byte) (s : State) : Host.Outcome State Fault Refusal := perform (rotMem .srl (.atIdx .iy d) (some .c)) s

/-- `SRL (IY+d),D` (rule R502). -/
def execSrl_atIYd_D (d : Byte) (s : State) : Host.Outcome State Fault Refusal := perform (rotMem .srl (.atIdx .iy d) (some .d)) s

/-- `SRL (IY+d),E` (rule R502). -/
def execSrl_atIYd_E (d : Byte) (s : State) : Host.Outcome State Fault Refusal := perform (rotMem .srl (.atIdx .iy d) (some .e)) s

/-- `SRL (IY+d),H` (rule R502). -/
def execSrl_atIYd_H (d : Byte) (s : State) : Host.Outcome State Fault Refusal := perform (rotMem .srl (.atIdx .iy d) (some .h)) s

/-- `SRL (IY+d),L` (rule R502). -/
def execSrl_atIYd_L (d : Byte) (s : State) : Host.Outcome State Fault Refusal := perform (rotMem .srl (.atIdx .iy d) (some .l)) s

/-- `SRL (IY+d)` (rule R502). -/
def execSrl_atIYd (d : Byte) (s : State) : Host.Outcome State Fault Refusal := perform (rotMem .srl (.atIdx .iy d) none) s

/-- `SRL (IY+d),A` (rule R502). -/
def execSrl_atIYd_A (d : Byte) (s : State) : Host.Outcome State Fault Refusal := perform (rotMem .srl (.atIdx .iy d) (some .a)) s

end Sys2Proof.Machine
end

