-- ==== Sys2Proof/Machine/BitOps.lean ====
section
/-! DEFINITION. Bit test, reset and set (47_bit.md). -/

namespace Sys2Proof.Machine

/-! ## Shared operations -/

/-- Rule R520. -/
def bitReg (b : Fin 8) (r : Reg8) : M Unit := modRegs fun g =>
  g.setFlags (bitFlags b (g.get8 r) (g.get8 r) g.flags)

/-- Rule R521: `Y` and `X` come from WZ. -/
def bitHL (b : Fin 8) : M Unit := do
  let hl ← getReg16 .hl
  let v ← mr hl
  internal hl 1
  modRegs fun g => g.setFlags (bitFlags b v (hi g.wz) g.flags)

/-- Rule R522. -/
def bitIdx (b : Fin 8) (i : XY) (d : Byte) : M Unit := do
  let ea ← cbAddr (.atIdx i d)
  let v ← mr ea
  internal ea 1
  modRegs fun g => g.setFlags (bitFlags b v (hi ea) g.flags)

/-- `v & ~(1 << b)`. -/
def resBit (b : Fin 8) (v : Byte) : Byte := v &&& ~~~bitMask b

/-- `v | (1 << b)`. -/
def setBit (b : Fin 8) (v : Byte) : Byte := v ||| bitMask b

/-- Rule R523. -/
def resReg (b : Fin 8) (r : Reg8) : M Unit := modRegs fun g => g.set8 r (resBit b (g.get8 r))

/-- Rule R526. -/
def setReg (b : Fin 8) (r : Reg8) : M Unit := modRegs fun g => g.set8 r (setBit b (g.get8 r))

/-- Rules R524 and R525. -/
def resMem (b : Fin 8) (m : Mem8) (copy : Option R7) : M Unit := do
  let ea ← cbAddr m
  let v ← mr ea
  internal ea 1
  mw ea (resBit b v)
  copyInto copy (resBit b v)

/-- Rules R527 and R528. -/
def setMem (b : Fin 8) (m : Mem8) (copy : Option R7) : M Unit := do
  let ea ← cbAddr m
  let v ← mr ea
  internal ea 1
  mw ea (setBit b v)
  copyInto copy (setBit b v)

/-! ## One meaning per instruction -/

/-- `BIT 0,B` (rule R520). -/
def execBit_0_B (s : State) : Host.Outcome State Fault Refusal := perform (bitReg 0 .b) s

/-- `BIT 0,C` (rule R520). -/
def execBit_0_C (s : State) : Host.Outcome State Fault Refusal := perform (bitReg 0 .c) s

/-- `BIT 0,D` (rule R520). -/
def execBit_0_D (s : State) : Host.Outcome State Fault Refusal := perform (bitReg 0 .d) s

/-- `BIT 0,E` (rule R520). -/
def execBit_0_E (s : State) : Host.Outcome State Fault Refusal := perform (bitReg 0 .e) s

/-- `BIT 0,H` (rule R520). -/
def execBit_0_H (s : State) : Host.Outcome State Fault Refusal := perform (bitReg 0 .h) s

/-- `BIT 0,L` (rule R520). -/
def execBit_0_L (s : State) : Host.Outcome State Fault Refusal := perform (bitReg 0 .l) s

/-- `BIT 0,(HL)` (rule R521). -/
def execBit_0_atHL (s : State) : Host.Outcome State Fault Refusal := perform (bitHL 0) s

/-- `BIT 0,A` (rule R520). -/
def execBit_0_A (s : State) : Host.Outcome State Fault Refusal := perform (bitReg 0 .a) s

/-- `BIT 1,B` (rule R520). -/
def execBit_1_B (s : State) : Host.Outcome State Fault Refusal := perform (bitReg 1 .b) s

/-- `BIT 1,C` (rule R520). -/
def execBit_1_C (s : State) : Host.Outcome State Fault Refusal := perform (bitReg 1 .c) s

/-- `BIT 1,D` (rule R520). -/
def execBit_1_D (s : State) : Host.Outcome State Fault Refusal := perform (bitReg 1 .d) s

/-- `BIT 1,E` (rule R520). -/
def execBit_1_E (s : State) : Host.Outcome State Fault Refusal := perform (bitReg 1 .e) s

/-- `BIT 1,H` (rule R520). -/
def execBit_1_H (s : State) : Host.Outcome State Fault Refusal := perform (bitReg 1 .h) s

/-- `BIT 1,L` (rule R520). -/
def execBit_1_L (s : State) : Host.Outcome State Fault Refusal := perform (bitReg 1 .l) s

/-- `BIT 1,(HL)` (rule R521). -/
def execBit_1_atHL (s : State) : Host.Outcome State Fault Refusal := perform (bitHL 1) s

/-- `BIT 1,A` (rule R520). -/
def execBit_1_A (s : State) : Host.Outcome State Fault Refusal := perform (bitReg 1 .a) s

/-- `BIT 2,B` (rule R520). -/
def execBit_2_B (s : State) : Host.Outcome State Fault Refusal := perform (bitReg 2 .b) s

/-- `BIT 2,C` (rule R520). -/
def execBit_2_C (s : State) : Host.Outcome State Fault Refusal := perform (bitReg 2 .c) s

/-- `BIT 2,D` (rule R520). -/
def execBit_2_D (s : State) : Host.Outcome State Fault Refusal := perform (bitReg 2 .d) s

/-- `BIT 2,E` (rule R520). -/
def execBit_2_E (s : State) : Host.Outcome State Fault Refusal := perform (bitReg 2 .e) s

/-- `BIT 2,H` (rule R520). -/
def execBit_2_H (s : State) : Host.Outcome State Fault Refusal := perform (bitReg 2 .h) s

/-- `BIT 2,L` (rule R520). -/
def execBit_2_L (s : State) : Host.Outcome State Fault Refusal := perform (bitReg 2 .l) s

/-- `BIT 2,(HL)` (rule R521). -/
def execBit_2_atHL (s : State) : Host.Outcome State Fault Refusal := perform (bitHL 2) s

/-- `BIT 2,A` (rule R520). -/
def execBit_2_A (s : State) : Host.Outcome State Fault Refusal := perform (bitReg 2 .a) s

/-- `BIT 3,B` (rule R520). -/
def execBit_3_B (s : State) : Host.Outcome State Fault Refusal := perform (bitReg 3 .b) s

/-- `BIT 3,C` (rule R520). -/
def execBit_3_C (s : State) : Host.Outcome State Fault Refusal := perform (bitReg 3 .c) s

/-- `BIT 3,D` (rule R520). -/
def execBit_3_D (s : State) : Host.Outcome State Fault Refusal := perform (bitReg 3 .d) s

/-- `BIT 3,E` (rule R520). -/
def execBit_3_E (s : State) : Host.Outcome State Fault Refusal := perform (bitReg 3 .e) s

/-- `BIT 3,H` (rule R520). -/
def execBit_3_H (s : State) : Host.Outcome State Fault Refusal := perform (bitReg 3 .h) s

/-- `BIT 3,L` (rule R520). -/
def execBit_3_L (s : State) : Host.Outcome State Fault Refusal := perform (bitReg 3 .l) s

/-- `BIT 3,(HL)` (rule R521). -/
def execBit_3_atHL (s : State) : Host.Outcome State Fault Refusal := perform (bitHL 3) s

/-- `BIT 3,A` (rule R520). -/
def execBit_3_A (s : State) : Host.Outcome State Fault Refusal := perform (bitReg 3 .a) s

/-- `BIT 4,B` (rule R520). -/
def execBit_4_B (s : State) : Host.Outcome State Fault Refusal := perform (bitReg 4 .b) s

/-- `BIT 4,C` (rule R520). -/
def execBit_4_C (s : State) : Host.Outcome State Fault Refusal := perform (bitReg 4 .c) s

/-- `BIT 4,D` (rule R520). -/
def execBit_4_D (s : State) : Host.Outcome State Fault Refusal := perform (bitReg 4 .d) s

/-- `BIT 4,E` (rule R520). -/
def execBit_4_E (s : State) : Host.Outcome State Fault Refusal := perform (bitReg 4 .e) s

/-- `BIT 4,H` (rule R520). -/
def execBit_4_H (s : State) : Host.Outcome State Fault Refusal := perform (bitReg 4 .h) s

/-- `BIT 4,L` (rule R520). -/
def execBit_4_L (s : State) : Host.Outcome State Fault Refusal := perform (bitReg 4 .l) s

/-- `BIT 4,(HL)` (rule R521). -/
def execBit_4_atHL (s : State) : Host.Outcome State Fault Refusal := perform (bitHL 4) s

/-- `BIT 4,A` (rule R520). -/
def execBit_4_A (s : State) : Host.Outcome State Fault Refusal := perform (bitReg 4 .a) s

/-- `BIT 5,B` (rule R520). -/
def execBit_5_B (s : State) : Host.Outcome State Fault Refusal := perform (bitReg 5 .b) s

/-- `BIT 5,C` (rule R520). -/
def execBit_5_C (s : State) : Host.Outcome State Fault Refusal := perform (bitReg 5 .c) s

/-- `BIT 5,D` (rule R520). -/
def execBit_5_D (s : State) : Host.Outcome State Fault Refusal := perform (bitReg 5 .d) s

/-- `BIT 5,E` (rule R520). -/
def execBit_5_E (s : State) : Host.Outcome State Fault Refusal := perform (bitReg 5 .e) s

/-- `BIT 5,H` (rule R520). -/
def execBit_5_H (s : State) : Host.Outcome State Fault Refusal := perform (bitReg 5 .h) s

/-- `BIT 5,L` (rule R520). -/
def execBit_5_L (s : State) : Host.Outcome State Fault Refusal := perform (bitReg 5 .l) s

/-- `BIT 5,(HL)` (rule R521). -/
def execBit_5_atHL (s : State) : Host.Outcome State Fault Refusal := perform (bitHL 5) s

/-- `BIT 5,A` (rule R520). -/
def execBit_5_A (s : State) : Host.Outcome State Fault Refusal := perform (bitReg 5 .a) s

/-- `BIT 6,B` (rule R520). -/
def execBit_6_B (s : State) : Host.Outcome State Fault Refusal := perform (bitReg 6 .b) s

/-- `BIT 6,C` (rule R520). -/
def execBit_6_C (s : State) : Host.Outcome State Fault Refusal := perform (bitReg 6 .c) s

/-- `BIT 6,D` (rule R520). -/
def execBit_6_D (s : State) : Host.Outcome State Fault Refusal := perform (bitReg 6 .d) s

/-- `BIT 6,E` (rule R520). -/
def execBit_6_E (s : State) : Host.Outcome State Fault Refusal := perform (bitReg 6 .e) s

/-- `BIT 6,H` (rule R520). -/
def execBit_6_H (s : State) : Host.Outcome State Fault Refusal := perform (bitReg 6 .h) s

/-- `BIT 6,L` (rule R520). -/
def execBit_6_L (s : State) : Host.Outcome State Fault Refusal := perform (bitReg 6 .l) s

/-- `BIT 6,(HL)` (rule R521). -/
def execBit_6_atHL (s : State) : Host.Outcome State Fault Refusal := perform (bitHL 6) s

/-- `BIT 6,A` (rule R520). -/
def execBit_6_A (s : State) : Host.Outcome State Fault Refusal := perform (bitReg 6 .a) s

/-- `BIT 7,B` (rule R520). -/
def execBit_7_B (s : State) : Host.Outcome State Fault Refusal := perform (bitReg 7 .b) s

/-- `BIT 7,C` (rule R520). -/
def execBit_7_C (s : State) : Host.Outcome State Fault Refusal := perform (bitReg 7 .c) s

/-- `BIT 7,D` (rule R520). -/
def execBit_7_D (s : State) : Host.Outcome State Fault Refusal := perform (bitReg 7 .d) s

/-- `BIT 7,E` (rule R520). -/
def execBit_7_E (s : State) : Host.Outcome State Fault Refusal := perform (bitReg 7 .e) s

/-- `BIT 7,H` (rule R520). -/
def execBit_7_H (s : State) : Host.Outcome State Fault Refusal := perform (bitReg 7 .h) s

/-- `BIT 7,L` (rule R520). -/
def execBit_7_L (s : State) : Host.Outcome State Fault Refusal := perform (bitReg 7 .l) s

/-- `BIT 7,(HL)` (rule R521). -/
def execBit_7_atHL (s : State) : Host.Outcome State Fault Refusal := perform (bitHL 7) s

/-- `BIT 7,A` (rule R520). -/
def execBit_7_A (s : State) : Host.Outcome State Fault Refusal := perform (bitReg 7 .a) s

/-- `RES 0,B` (rule R523). -/
def execRes_0_B (s : State) : Host.Outcome State Fault Refusal := perform (resReg 0 .b) s

/-- `RES 0,C` (rule R523). -/
def execRes_0_C (s : State) : Host.Outcome State Fault Refusal := perform (resReg 0 .c) s

/-- `RES 0,D` (rule R523). -/
def execRes_0_D (s : State) : Host.Outcome State Fault Refusal := perform (resReg 0 .d) s

/-- `RES 0,E` (rule R523). -/
def execRes_0_E (s : State) : Host.Outcome State Fault Refusal := perform (resReg 0 .e) s

/-- `RES 0,H` (rule R523). -/
def execRes_0_H (s : State) : Host.Outcome State Fault Refusal := perform (resReg 0 .h) s

/-- `RES 0,L` (rule R523). -/
def execRes_0_L (s : State) : Host.Outcome State Fault Refusal := perform (resReg 0 .l) s

/-- `RES 0,(HL)` (rule R524). -/
def execRes_0_atHL (s : State) : Host.Outcome State Fault Refusal := perform (resMem 0 .atHL none) s

/-- `RES 0,A` (rule R523). -/
def execRes_0_A (s : State) : Host.Outcome State Fault Refusal := perform (resReg 0 .a) s

/-- `RES 1,B` (rule R523). -/
def execRes_1_B (s : State) : Host.Outcome State Fault Refusal := perform (resReg 1 .b) s

/-- `RES 1,C` (rule R523). -/
def execRes_1_C (s : State) : Host.Outcome State Fault Refusal := perform (resReg 1 .c) s

/-- `RES 1,D` (rule R523). -/
def execRes_1_D (s : State) : Host.Outcome State Fault Refusal := perform (resReg 1 .d) s

/-- `RES 1,E` (rule R523). -/
def execRes_1_E (s : State) : Host.Outcome State Fault Refusal := perform (resReg 1 .e) s

/-- `RES 1,H` (rule R523). -/
def execRes_1_H (s : State) : Host.Outcome State Fault Refusal := perform (resReg 1 .h) s

/-- `RES 1,L` (rule R523). -/
def execRes_1_L (s : State) : Host.Outcome State Fault Refusal := perform (resReg 1 .l) s

/-- `RES 1,(HL)` (rule R524). -/
def execRes_1_atHL (s : State) : Host.Outcome State Fault Refusal := perform (resMem 1 .atHL none) s

/-- `RES 1,A` (rule R523). -/
def execRes_1_A (s : State) : Host.Outcome State Fault Refusal := perform (resReg 1 .a) s

/-- `RES 2,B` (rule R523). -/
def execRes_2_B (s : State) : Host.Outcome State Fault Refusal := perform (resReg 2 .b) s

/-- `RES 2,C` (rule R523). -/
def execRes_2_C (s : State) : Host.Outcome State Fault Refusal := perform (resReg 2 .c) s

/-- `RES 2,D` (rule R523). -/
def execRes_2_D (s : State) : Host.Outcome State Fault Refusal := perform (resReg 2 .d) s

/-- `RES 2,E` (rule R523). -/
def execRes_2_E (s : State) : Host.Outcome State Fault Refusal := perform (resReg 2 .e) s

/-- `RES 2,H` (rule R523). -/
def execRes_2_H (s : State) : Host.Outcome State Fault Refusal := perform (resReg 2 .h) s

/-- `RES 2,L` (rule R523). -/
def execRes_2_L (s : State) : Host.Outcome State Fault Refusal := perform (resReg 2 .l) s

/-- `RES 2,(HL)` (rule R524). -/
def execRes_2_atHL (s : State) : Host.Outcome State Fault Refusal := perform (resMem 2 .atHL none) s

/-- `RES 2,A` (rule R523). -/
def execRes_2_A (s : State) : Host.Outcome State Fault Refusal := perform (resReg 2 .a) s

/-- `RES 3,B` (rule R523). -/
def execRes_3_B (s : State) : Host.Outcome State Fault Refusal := perform (resReg 3 .b) s

/-- `RES 3,C` (rule R523). -/
def execRes_3_C (s : State) : Host.Outcome State Fault Refusal := perform (resReg 3 .c) s

/-- `RES 3,D` (rule R523). -/
def execRes_3_D (s : State) : Host.Outcome State Fault Refusal := perform (resReg 3 .d) s

/-- `RES 3,E` (rule R523). -/
def execRes_3_E (s : State) : Host.Outcome State Fault Refusal := perform (resReg 3 .e) s

/-- `RES 3,H` (rule R523). -/
def execRes_3_H (s : State) : Host.Outcome State Fault Refusal := perform (resReg 3 .h) s

/-- `RES 3,L` (rule R523). -/
def execRes_3_L (s : State) : Host.Outcome State Fault Refusal := perform (resReg 3 .l) s

/-- `RES 3,(HL)` (rule R524). -/
def execRes_3_atHL (s : State) : Host.Outcome State Fault Refusal := perform (resMem 3 .atHL none) s

/-- `RES 3,A` (rule R523). -/
def execRes_3_A (s : State) : Host.Outcome State Fault Refusal := perform (resReg 3 .a) s

/-- `RES 4,B` (rule R523). -/
def execRes_4_B (s : State) : Host.Outcome State Fault Refusal := perform (resReg 4 .b) s

/-- `RES 4,C` (rule R523). -/
def execRes_4_C (s : State) : Host.Outcome State Fault Refusal := perform (resReg 4 .c) s

/-- `RES 4,D` (rule R523). -/
def execRes_4_D (s : State) : Host.Outcome State Fault Refusal := perform (resReg 4 .d) s

/-- `RES 4,E` (rule R523). -/
def execRes_4_E (s : State) : Host.Outcome State Fault Refusal := perform (resReg 4 .e) s

/-- `RES 4,H` (rule R523). -/
def execRes_4_H (s : State) : Host.Outcome State Fault Refusal := perform (resReg 4 .h) s

/-- `RES 4,L` (rule R523). -/
def execRes_4_L (s : State) : Host.Outcome State Fault Refusal := perform (resReg 4 .l) s

/-- `RES 4,(HL)` (rule R524). -/
def execRes_4_atHL (s : State) : Host.Outcome State Fault Refusal := perform (resMem 4 .atHL none) s

/-- `RES 4,A` (rule R523). -/
def execRes_4_A (s : State) : Host.Outcome State Fault Refusal := perform (resReg 4 .a) s

/-- `RES 5,B` (rule R523). -/
def execRes_5_B (s : State) : Host.Outcome State Fault Refusal := perform (resReg 5 .b) s

/-- `RES 5,C` (rule R523). -/
def execRes_5_C (s : State) : Host.Outcome State Fault Refusal := perform (resReg 5 .c) s

/-- `RES 5,D` (rule R523). -/
def execRes_5_D (s : State) : Host.Outcome State Fault Refusal := perform (resReg 5 .d) s

/-- `RES 5,E` (rule R523). -/
def execRes_5_E (s : State) : Host.Outcome State Fault Refusal := perform (resReg 5 .e) s

/-- `RES 5,H` (rule R523). -/
def execRes_5_H (s : State) : Host.Outcome State Fault Refusal := perform (resReg 5 .h) s

/-- `RES 5,L` (rule R523). -/
def execRes_5_L (s : State) : Host.Outcome State Fault Refusal := perform (resReg 5 .l) s

/-- `RES 5,(HL)` (rule R524). -/
def execRes_5_atHL (s : State) : Host.Outcome State Fault Refusal := perform (resMem 5 .atHL none) s

/-- `RES 5,A` (rule R523). -/
def execRes_5_A (s : State) : Host.Outcome State Fault Refusal := perform (resReg 5 .a) s

/-- `RES 6,B` (rule R523). -/
def execRes_6_B (s : State) : Host.Outcome State Fault Refusal := perform (resReg 6 .b) s

/-- `RES 6,C` (rule R523). -/
def execRes_6_C (s : State) : Host.Outcome State Fault Refusal := perform (resReg 6 .c) s

/-- `RES 6,D` (rule R523). -/
def execRes_6_D (s : State) : Host.Outcome State Fault Refusal := perform (resReg 6 .d) s

/-- `RES 6,E` (rule R523). -/
def execRes_6_E (s : State) : Host.Outcome State Fault Refusal := perform (resReg 6 .e) s

/-- `RES 6,H` (rule R523). -/
def execRes_6_H (s : State) : Host.Outcome State Fault Refusal := perform (resReg 6 .h) s

/-- `RES 6,L` (rule R523). -/
def execRes_6_L (s : State) : Host.Outcome State Fault Refusal := perform (resReg 6 .l) s

/-- `RES 6,(HL)` (rule R524). -/
def execRes_6_atHL (s : State) : Host.Outcome State Fault Refusal := perform (resMem 6 .atHL none) s

/-- `RES 6,A` (rule R523). -/
def execRes_6_A (s : State) : Host.Outcome State Fault Refusal := perform (resReg 6 .a) s

/-- `RES 7,B` (rule R523). -/
def execRes_7_B (s : State) : Host.Outcome State Fault Refusal := perform (resReg 7 .b) s

/-- `RES 7,C` (rule R523). -/
def execRes_7_C (s : State) : Host.Outcome State Fault Refusal := perform (resReg 7 .c) s

/-- `RES 7,D` (rule R523). -/
def execRes_7_D (s : State) : Host.Outcome State Fault Refusal := perform (resReg 7 .d) s

/-- `RES 7,E` (rule R523). -/
def execRes_7_E (s : State) : Host.Outcome State Fault Refusal := perform (resReg 7 .e) s

/-- `RES 7,H` (rule R523). -/
def execRes_7_H (s : State) : Host.Outcome State Fault Refusal := perform (resReg 7 .h) s

/-- `RES 7,L` (rule R523). -/
def execRes_7_L (s : State) : Host.Outcome State Fault Refusal := perform (resReg 7 .l) s

/-- `RES 7,(HL)` (rule R524). -/
def execRes_7_atHL (s : State) : Host.Outcome State Fault Refusal := perform (resMem 7 .atHL none) s

/-- `RES 7,A` (rule R523). -/
def execRes_7_A (s : State) : Host.Outcome State Fault Refusal := perform (resReg 7 .a) s

/-- `SET 0,B` (rule R526). -/
def execSet_0_B (s : State) : Host.Outcome State Fault Refusal := perform (setReg 0 .b) s

/-- `SET 0,C` (rule R526). -/
def execSet_0_C (s : State) : Host.Outcome State Fault Refusal := perform (setReg 0 .c) s

/-- `SET 0,D` (rule R526). -/
def execSet_0_D (s : State) : Host.Outcome State Fault Refusal := perform (setReg 0 .d) s

/-- `SET 0,E` (rule R526). -/
def execSet_0_E (s : State) : Host.Outcome State Fault Refusal := perform (setReg 0 .e) s

/-- `SET 0,H` (rule R526). -/
def execSet_0_H (s : State) : Host.Outcome State Fault Refusal := perform (setReg 0 .h) s

/-- `SET 0,L` (rule R526). -/
def execSet_0_L (s : State) : Host.Outcome State Fault Refusal := perform (setReg 0 .l) s

/-- `SET 0,(HL)` (rule R527). -/
def execSet_0_atHL (s : State) : Host.Outcome State Fault Refusal := perform (setMem 0 .atHL none) s

/-- `SET 0,A` (rule R526). -/
def execSet_0_A (s : State) : Host.Outcome State Fault Refusal := perform (setReg 0 .a) s

/-- `SET 1,B` (rule R526). -/
def execSet_1_B (s : State) : Host.Outcome State Fault Refusal := perform (setReg 1 .b) s

/-- `SET 1,C` (rule R526). -/
def execSet_1_C (s : State) : Host.Outcome State Fault Refusal := perform (setReg 1 .c) s

/-- `SET 1,D` (rule R526). -/
def execSet_1_D (s : State) : Host.Outcome State Fault Refusal := perform (setReg 1 .d) s

/-- `SET 1,E` (rule R526). -/
def execSet_1_E (s : State) : Host.Outcome State Fault Refusal := perform (setReg 1 .e) s

/-- `SET 1,H` (rule R526). -/
def execSet_1_H (s : State) : Host.Outcome State Fault Refusal := perform (setReg 1 .h) s

/-- `SET 1,L` (rule R526). -/
def execSet_1_L (s : State) : Host.Outcome State Fault Refusal := perform (setReg 1 .l) s

/-- `SET 1,(HL)` (rule R527). -/
def execSet_1_atHL (s : State) : Host.Outcome State Fault Refusal := perform (setMem 1 .atHL none) s

/-- `SET 1,A` (rule R526). -/
def execSet_1_A (s : State) : Host.Outcome State Fault Refusal := perform (setReg 1 .a) s

/-- `SET 2,B` (rule R526). -/
def execSet_2_B (s : State) : Host.Outcome State Fault Refusal := perform (setReg 2 .b) s

/-- `SET 2,C` (rule R526). -/
def execSet_2_C (s : State) : Host.Outcome State Fault Refusal := perform (setReg 2 .c) s

/-- `SET 2,D` (rule R526). -/
def execSet_2_D (s : State) : Host.Outcome State Fault Refusal := perform (setReg 2 .d) s

/-- `SET 2,E` (rule R526). -/
def execSet_2_E (s : State) : Host.Outcome State Fault Refusal := perform (setReg 2 .e) s

/-- `SET 2,H` (rule R526). -/
def execSet_2_H (s : State) : Host.Outcome State Fault Refusal := perform (setReg 2 .h) s

/-- `SET 2,L` (rule R526). -/
def execSet_2_L (s : State) : Host.Outcome State Fault Refusal := perform (setReg 2 .l) s

/-- `SET 2,(HL)` (rule R527). -/
def execSet_2_atHL (s : State) : Host.Outcome State Fault Refusal := perform (setMem 2 .atHL none) s

/-- `SET 2,A` (rule R526). -/
def execSet_2_A (s : State) : Host.Outcome State Fault Refusal := perform (setReg 2 .a) s

/-- `SET 3,B` (rule R526). -/
def execSet_3_B (s : State) : Host.Outcome State Fault Refusal := perform (setReg 3 .b) s

/-- `SET 3,C` (rule R526). -/
def execSet_3_C (s : State) : Host.Outcome State Fault Refusal := perform (setReg 3 .c) s

/-- `SET 3,D` (rule R526). -/
def execSet_3_D (s : State) : Host.Outcome State Fault Refusal := perform (setReg 3 .d) s

/-- `SET 3,E` (rule R526). -/
def execSet_3_E (s : State) : Host.Outcome State Fault Refusal := perform (setReg 3 .e) s

/-- `SET 3,H` (rule R526). -/
def execSet_3_H (s : State) : Host.Outcome State Fault Refusal := perform (setReg 3 .h) s

/-- `SET 3,L` (rule R526). -/
def execSet_3_L (s : State) : Host.Outcome State Fault Refusal := perform (setReg 3 .l) s

/-- `SET 3,(HL)` (rule R527). -/
def execSet_3_atHL (s : State) : Host.Outcome State Fault Refusal := perform (setMem 3 .atHL none) s

/-- `SET 3,A` (rule R526). -/
def execSet_3_A (s : State) : Host.Outcome State Fault Refusal := perform (setReg 3 .a) s

/-- `SET 4,B` (rule R526). -/
def execSet_4_B (s : State) : Host.Outcome State Fault Refusal := perform (setReg 4 .b) s

/-- `SET 4,C` (rule R526). -/
def execSet_4_C (s : State) : Host.Outcome State Fault Refusal := perform (setReg 4 .c) s

/-- `SET 4,D` (rule R526). -/
def execSet_4_D (s : State) : Host.Outcome State Fault Refusal := perform (setReg 4 .d) s

/-- `SET 4,E` (rule R526). -/
def execSet_4_E (s : State) : Host.Outcome State Fault Refusal := perform (setReg 4 .e) s

/-- `SET 4,H` (rule R526). -/
def execSet_4_H (s : State) : Host.Outcome State Fault Refusal := perform (setReg 4 .h) s

/-- `SET 4,L` (rule R526). -/
def execSet_4_L (s : State) : Host.Outcome State Fault Refusal := perform (setReg 4 .l) s

/-- `SET 4,(HL)` (rule R527). -/
def execSet_4_atHL (s : State) : Host.Outcome State Fault Refusal := perform (setMem 4 .atHL none) s

/-- `SET 4,A` (rule R526). -/
def execSet_4_A (s : State) : Host.Outcome State Fault Refusal := perform (setReg 4 .a) s

/-- `SET 5,B` (rule R526). -/
def execSet_5_B (s : State) : Host.Outcome State Fault Refusal := perform (setReg 5 .b) s

/-- `SET 5,C` (rule R526). -/
def execSet_5_C (s : State) : Host.Outcome State Fault Refusal := perform (setReg 5 .c) s

/-- `SET 5,D` (rule R526). -/
def execSet_5_D (s : State) : Host.Outcome State Fault Refusal := perform (setReg 5 .d) s

/-- `SET 5,E` (rule R526). -/
def execSet_5_E (s : State) : Host.Outcome State Fault Refusal := perform (setReg 5 .e) s

/-- `SET 5,H` (rule R526). -/
def execSet_5_H (s : State) : Host.Outcome State Fault Refusal := perform (setReg 5 .h) s

/-- `SET 5,L` (rule R526). -/
def execSet_5_L (s : State) : Host.Outcome State Fault Refusal := perform (setReg 5 .l) s

/-- `SET 5,(HL)` (rule R527). -/
def execSet_5_atHL (s : State) : Host.Outcome State Fault Refusal := perform (setMem 5 .atHL none) s

/-- `SET 5,A` (rule R526). -/
def execSet_5_A (s : State) : Host.Outcome State Fault Refusal := perform (setReg 5 .a) s

/-- `SET 6,B` (rule R526). -/
def execSet_6_B (s : State) : Host.Outcome State Fault Refusal := perform (setReg 6 .b) s

/-- `SET 6,C` (rule R526). -/
def execSet_6_C (s : State) : Host.Outcome State Fault Refusal := perform (setReg 6 .c) s

/-- `SET 6,D` (rule R526). -/
def execSet_6_D (s : State) : Host.Outcome State Fault Refusal := perform (setReg 6 .d) s

/-- `SET 6,E` (rule R526). -/
def execSet_6_E (s : State) : Host.Outcome State Fault Refusal := perform (setReg 6 .e) s

/-- `SET 6,H` (rule R526). -/
def execSet_6_H (s : State) : Host.Outcome State Fault Refusal := perform (setReg 6 .h) s

/-- `SET 6,L` (rule R526). -/
def execSet_6_L (s : State) : Host.Outcome State Fault Refusal := perform (setReg 6 .l) s

/-- `SET 6,(HL)` (rule R527). -/
def execSet_6_atHL (s : State) : Host.Outcome State Fault Refusal := perform (setMem 6 .atHL none) s

/-- `SET 6,A` (rule R526). -/
def execSet_6_A (s : State) : Host.Outcome State Fault Refusal := perform (setReg 6 .a) s

/-- `SET 7,B` (rule R526). -/
def execSet_7_B (s : State) : Host.Outcome State Fault Refusal := perform (setReg 7 .b) s

/-- `SET 7,C` (rule R526). -/
def execSet_7_C (s : State) : Host.Outcome State Fault Refusal := perform (setReg 7 .c) s

/-- `SET 7,D` (rule R526). -/
def execSet_7_D (s : State) : Host.Outcome State Fault Refusal := perform (setReg 7 .d) s

/-- `SET 7,E` (rule R526). -/
def execSet_7_E (s : State) : Host.Outcome State Fault Refusal := perform (setReg 7 .e) s

/-- `SET 7,H` (rule R526). -/
def execSet_7_H (s : State) : Host.Outcome State Fault Refusal := perform (setReg 7 .h) s

/-- `SET 7,L` (rule R526). -/
def execSet_7_L (s : State) : Host.Outcome State Fault Refusal := perform (setReg 7 .l) s

/-- `SET 7,(HL)` (rule R527). -/
def execSet_7_atHL (s : State) : Host.Outcome State Fault Refusal := perform (setMem 7 .atHL none) s

/-- `SET 7,A` (rule R526). -/
def execSet_7_A (s : State) : Host.Outcome State Fault Refusal := perform (setReg 7 .a) s

/-- `BIT 0,(IX+d)` (rule R522). -/
def execBit_0_atIXd (d : Byte) (s : State) : Host.Outcome State Fault Refusal := perform (bitIdx 0 .ix d) s

/-- `BIT 1,(IX+d)` (rule R522). -/
def execBit_1_atIXd (d : Byte) (s : State) : Host.Outcome State Fault Refusal := perform (bitIdx 1 .ix d) s

/-- `BIT 2,(IX+d)` (rule R522). -/
def execBit_2_atIXd (d : Byte) (s : State) : Host.Outcome State Fault Refusal := perform (bitIdx 2 .ix d) s

/-- `BIT 3,(IX+d)` (rule R522). -/
def execBit_3_atIXd (d : Byte) (s : State) : Host.Outcome State Fault Refusal := perform (bitIdx 3 .ix d) s

/-- `BIT 4,(IX+d)` (rule R522). -/
def execBit_4_atIXd (d : Byte) (s : State) : Host.Outcome State Fault Refusal := perform (bitIdx 4 .ix d) s

/-- `BIT 5,(IX+d)` (rule R522). -/
def execBit_5_atIXd (d : Byte) (s : State) : Host.Outcome State Fault Refusal := perform (bitIdx 5 .ix d) s

/-- `BIT 6,(IX+d)` (rule R522). -/
def execBit_6_atIXd (d : Byte) (s : State) : Host.Outcome State Fault Refusal := perform (bitIdx 6 .ix d) s

/-- `BIT 7,(IX+d)` (rule R522). -/
def execBit_7_atIXd (d : Byte) (s : State) : Host.Outcome State Fault Refusal := perform (bitIdx 7 .ix d) s

/-- `RES 0,(IX+d),B` (rule R525). -/
def execRes_0_atIXd_B (d : Byte) (s : State) : Host.Outcome State Fault Refusal := perform (resMem 0 (.atIdx .ix d) (some .b)) s

/-- `RES 0,(IX+d),C` (rule R525). -/
def execRes_0_atIXd_C (d : Byte) (s : State) : Host.Outcome State Fault Refusal := perform (resMem 0 (.atIdx .ix d) (some .c)) s

/-- `RES 0,(IX+d),D` (rule R525). -/
def execRes_0_atIXd_D (d : Byte) (s : State) : Host.Outcome State Fault Refusal := perform (resMem 0 (.atIdx .ix d) (some .d)) s

/-- `RES 0,(IX+d),E` (rule R525). -/
def execRes_0_atIXd_E (d : Byte) (s : State) : Host.Outcome State Fault Refusal := perform (resMem 0 (.atIdx .ix d) (some .e)) s

/-- `RES 0,(IX+d),H` (rule R525). -/
def execRes_0_atIXd_H (d : Byte) (s : State) : Host.Outcome State Fault Refusal := perform (resMem 0 (.atIdx .ix d) (some .h)) s

/-- `RES 0,(IX+d),L` (rule R525). -/
def execRes_0_atIXd_L (d : Byte) (s : State) : Host.Outcome State Fault Refusal := perform (resMem 0 (.atIdx .ix d) (some .l)) s

/-- `RES 0,(IX+d)` (rule R525). -/
def execRes_0_atIXd (d : Byte) (s : State) : Host.Outcome State Fault Refusal := perform (resMem 0 (.atIdx .ix d) none) s

/-- `RES 0,(IX+d),A` (rule R525). -/
def execRes_0_atIXd_A (d : Byte) (s : State) : Host.Outcome State Fault Refusal := perform (resMem 0 (.atIdx .ix d) (some .a)) s

/-- `RES 1,(IX+d),B` (rule R525). -/
def execRes_1_atIXd_B (d : Byte) (s : State) : Host.Outcome State Fault Refusal := perform (resMem 1 (.atIdx .ix d) (some .b)) s

/-- `RES 1,(IX+d),C` (rule R525). -/
def execRes_1_atIXd_C (d : Byte) (s : State) : Host.Outcome State Fault Refusal := perform (resMem 1 (.atIdx .ix d) (some .c)) s

/-- `RES 1,(IX+d),D` (rule R525). -/
def execRes_1_atIXd_D (d : Byte) (s : State) : Host.Outcome State Fault Refusal := perform (resMem 1 (.atIdx .ix d) (some .d)) s

/-- `RES 1,(IX+d),E` (rule R525). -/
def execRes_1_atIXd_E (d : Byte) (s : State) : Host.Outcome State Fault Refusal := perform (resMem 1 (.atIdx .ix d) (some .e)) s

/-- `RES 1,(IX+d),H` (rule R525). -/
def execRes_1_atIXd_H (d : Byte) (s : State) : Host.Outcome State Fault Refusal := perform (resMem 1 (.atIdx .ix d) (some .h)) s

/-- `RES 1,(IX+d),L` (rule R525). -/
def execRes_1_atIXd_L (d : Byte) (s : State) : Host.Outcome State Fault Refusal := perform (resMem 1 (.atIdx .ix d) (some .l)) s

/-- `RES 1,(IX+d)` (rule R525). -/
def execRes_1_atIXd (d : Byte) (s : State) : Host.Outcome State Fault Refusal := perform (resMem 1 (.atIdx .ix d) none) s

/-- `RES 1,(IX+d),A` (rule R525). -/
def execRes_1_atIXd_A (d : Byte) (s : State) : Host.Outcome State Fault Refusal := perform (resMem 1 (.atIdx .ix d) (some .a)) s

/-- `RES 2,(IX+d),B` (rule R525). -/
def execRes_2_atIXd_B (d : Byte) (s : State) : Host.Outcome State Fault Refusal := perform (resMem 2 (.atIdx .ix d) (some .b)) s

/-- `RES 2,(IX+d),C` (rule R525). -/
def execRes_2_atIXd_C (d : Byte) (s : State) : Host.Outcome State Fault Refusal := perform (resMem 2 (.atIdx .ix d) (some .c)) s

/-- `RES 2,(IX+d),D` (rule R525). -/
def execRes_2_atIXd_D (d : Byte) (s : State) : Host.Outcome State Fault Refusal := perform (resMem 2 (.atIdx .ix d) (some .d)) s

/-- `RES 2,(IX+d),E` (rule R525). -/
def execRes_2_atIXd_E (d : Byte) (s : State) : Host.Outcome State Fault Refusal := perform (resMem 2 (.atIdx .ix d) (some .e)) s

/-- `RES 2,(IX+d),H` (rule R525). -/
def execRes_2_atIXd_H (d : Byte) (s : State) : Host.Outcome State Fault Refusal := perform (resMem 2 (.atIdx .ix d) (some .h)) s

/-- `RES 2,(IX+d),L` (rule R525). -/
def execRes_2_atIXd_L (d : Byte) (s : State) : Host.Outcome State Fault Refusal := perform (resMem 2 (.atIdx .ix d) (some .l)) s

/-- `RES 2,(IX+d)` (rule R525). -/
def execRes_2_atIXd (d : Byte) (s : State) : Host.Outcome State Fault Refusal := perform (resMem 2 (.atIdx .ix d) none) s

/-- `RES 2,(IX+d),A` (rule R525). -/
def execRes_2_atIXd_A (d : Byte) (s : State) : Host.Outcome State Fault Refusal := perform (resMem 2 (.atIdx .ix d) (some .a)) s

/-- `RES 3,(IX+d),B` (rule R525). -/
def execRes_3_atIXd_B (d : Byte) (s : State) : Host.Outcome State Fault Refusal := perform (resMem 3 (.atIdx .ix d) (some .b)) s

/-- `RES 3,(IX+d),C` (rule R525). -/
def execRes_3_atIXd_C (d : Byte) (s : State) : Host.Outcome State Fault Refusal := perform (resMem 3 (.atIdx .ix d) (some .c)) s

/-- `RES 3,(IX+d),D` (rule R525). -/
def execRes_3_atIXd_D (d : Byte) (s : State) : Host.Outcome State Fault Refusal := perform (resMem 3 (.atIdx .ix d) (some .d)) s

/-- `RES 3,(IX+d),E` (rule R525). -/
def execRes_3_atIXd_E (d : Byte) (s : State) : Host.Outcome State Fault Refusal := perform (resMem 3 (.atIdx .ix d) (some .e)) s

/-- `RES 3,(IX+d),H` (rule R525). -/
def execRes_3_atIXd_H (d : Byte) (s : State) : Host.Outcome State Fault Refusal := perform (resMem 3 (.atIdx .ix d) (some .h)) s

/-- `RES 3,(IX+d),L` (rule R525). -/
def execRes_3_atIXd_L (d : Byte) (s : State) : Host.Outcome State Fault Refusal := perform (resMem 3 (.atIdx .ix d) (some .l)) s

/-- `RES 3,(IX+d)` (rule R525). -/
def execRes_3_atIXd (d : Byte) (s : State) : Host.Outcome State Fault Refusal := perform (resMem 3 (.atIdx .ix d) none) s

/-- `RES 3,(IX+d),A` (rule R525). -/
def execRes_3_atIXd_A (d : Byte) (s : State) : Host.Outcome State Fault Refusal := perform (resMem 3 (.atIdx .ix d) (some .a)) s

/-- `RES 4,(IX+d),B` (rule R525). -/
def execRes_4_atIXd_B (d : Byte) (s : State) : Host.Outcome State Fault Refusal := perform (resMem 4 (.atIdx .ix d) (some .b)) s

/-- `RES 4,(IX+d),C` (rule R525). -/
def execRes_4_atIXd_C (d : Byte) (s : State) : Host.Outcome State Fault Refusal := perform (resMem 4 (.atIdx .ix d) (some .c)) s

/-- `RES 4,(IX+d),D` (rule R525). -/
def execRes_4_atIXd_D (d : Byte) (s : State) : Host.Outcome State Fault Refusal := perform (resMem 4 (.atIdx .ix d) (some .d)) s

/-- `RES 4,(IX+d),E` (rule R525). -/
def execRes_4_atIXd_E (d : Byte) (s : State) : Host.Outcome State Fault Refusal := perform (resMem 4 (.atIdx .ix d) (some .e)) s

/-- `RES 4,(IX+d),H` (rule R525). -/
def execRes_4_atIXd_H (d : Byte) (s : State) : Host.Outcome State Fault Refusal := perform (resMem 4 (.atIdx .ix d) (some .h)) s

/-- `RES 4,(IX+d),L` (rule R525). -/
def execRes_4_atIXd_L (d : Byte) (s : State) : Host.Outcome State Fault Refusal := perform (resMem 4 (.atIdx .ix d) (some .l)) s

/-- `RES 4,(IX+d)` (rule R525). -/
def execRes_4_atIXd (d : Byte) (s : State) : Host.Outcome State Fault Refusal := perform (resMem 4 (.atIdx .ix d) none) s

/-- `RES 4,(IX+d),A` (rule R525). -/
def execRes_4_atIXd_A (d : Byte) (s : State) : Host.Outcome State Fault Refusal := perform (resMem 4 (.atIdx .ix d) (some .a)) s

/-- `RES 5,(IX+d),B` (rule R525). -/
def execRes_5_atIXd_B (d : Byte) (s : State) : Host.Outcome State Fault Refusal := perform (resMem 5 (.atIdx .ix d) (some .b)) s

/-- `RES 5,(IX+d),C` (rule R525). -/
def execRes_5_atIXd_C (d : Byte) (s : State) : Host.Outcome State Fault Refusal := perform (resMem 5 (.atIdx .ix d) (some .c)) s

/-- `RES 5,(IX+d),D` (rule R525). -/
def execRes_5_atIXd_D (d : Byte) (s : State) : Host.Outcome State Fault Refusal := perform (resMem 5 (.atIdx .ix d) (some .d)) s

/-- `RES 5,(IX+d),E` (rule R525). -/
def execRes_5_atIXd_E (d : Byte) (s : State) : Host.Outcome State Fault Refusal := perform (resMem 5 (.atIdx .ix d) (some .e)) s

/-- `RES 5,(IX+d),H` (rule R525). -/
def execRes_5_atIXd_H (d : Byte) (s : State) : Host.Outcome State Fault Refusal := perform (resMem 5 (.atIdx .ix d) (some .h)) s

/-- `RES 5,(IX+d),L` (rule R525). -/
def execRes_5_atIXd_L (d : Byte) (s : State) : Host.Outcome State Fault Refusal := perform (resMem 5 (.atIdx .ix d) (some .l)) s

/-- `RES 5,(IX+d)` (rule R525). -/
def execRes_5_atIXd (d : Byte) (s : State) : Host.Outcome State Fault Refusal := perform (resMem 5 (.atIdx .ix d) none) s

/-- `RES 5,(IX+d),A` (rule R525). -/
def execRes_5_atIXd_A (d : Byte) (s : State) : Host.Outcome State Fault Refusal := perform (resMem 5 (.atIdx .ix d) (some .a)) s

/-- `RES 6,(IX+d),B` (rule R525). -/
def execRes_6_atIXd_B (d : Byte) (s : State) : Host.Outcome State Fault Refusal := perform (resMem 6 (.atIdx .ix d) (some .b)) s

/-- `RES 6,(IX+d),C` (rule R525). -/
def execRes_6_atIXd_C (d : Byte) (s : State) : Host.Outcome State Fault Refusal := perform (resMem 6 (.atIdx .ix d) (some .c)) s

/-- `RES 6,(IX+d),D` (rule R525). -/
def execRes_6_atIXd_D (d : Byte) (s : State) : Host.Outcome State Fault Refusal := perform (resMem 6 (.atIdx .ix d) (some .d)) s

/-- `RES 6,(IX+d),E` (rule R525). -/
def execRes_6_atIXd_E (d : Byte) (s : State) : Host.Outcome State Fault Refusal := perform (resMem 6 (.atIdx .ix d) (some .e)) s

/-- `RES 6,(IX+d),H` (rule R525). -/
def execRes_6_atIXd_H (d : Byte) (s : State) : Host.Outcome State Fault Refusal := perform (resMem 6 (.atIdx .ix d) (some .h)) s

/-- `RES 6,(IX+d),L` (rule R525). -/
def execRes_6_atIXd_L (d : Byte) (s : State) : Host.Outcome State Fault Refusal := perform (resMem 6 (.atIdx .ix d) (some .l)) s

/-- `RES 6,(IX+d)` (rule R525). -/
def execRes_6_atIXd (d : Byte) (s : State) : Host.Outcome State Fault Refusal := perform (resMem 6 (.atIdx .ix d) none) s

/-- `RES 6,(IX+d),A` (rule R525). -/
def execRes_6_atIXd_A (d : Byte) (s : State) : Host.Outcome State Fault Refusal := perform (resMem 6 (.atIdx .ix d) (some .a)) s

/-- `RES 7,(IX+d),B` (rule R525). -/
def execRes_7_atIXd_B (d : Byte) (s : State) : Host.Outcome State Fault Refusal := perform (resMem 7 (.atIdx .ix d) (some .b)) s

/-- `RES 7,(IX+d),C` (rule R525). -/
def execRes_7_atIXd_C (d : Byte) (s : State) : Host.Outcome State Fault Refusal := perform (resMem 7 (.atIdx .ix d) (some .c)) s

/-- `RES 7,(IX+d),D` (rule R525). -/
def execRes_7_atIXd_D (d : Byte) (s : State) : Host.Outcome State Fault Refusal := perform (resMem 7 (.atIdx .ix d) (some .d)) s

/-- `RES 7,(IX+d),E` (rule R525). -/
def execRes_7_atIXd_E (d : Byte) (s : State) : Host.Outcome State Fault Refusal := perform (resMem 7 (.atIdx .ix d) (some .e)) s

/-- `RES 7,(IX+d),H` (rule R525). -/
def execRes_7_atIXd_H (d : Byte) (s : State) : Host.Outcome State Fault Refusal := perform (resMem 7 (.atIdx .ix d) (some .h)) s

/-- `RES 7,(IX+d),L` (rule R525). -/
def execRes_7_atIXd_L (d : Byte) (s : State) : Host.Outcome State Fault Refusal := perform (resMem 7 (.atIdx .ix d) (some .l)) s

/-- `RES 7,(IX+d)` (rule R525). -/
def execRes_7_atIXd (d : Byte) (s : State) : Host.Outcome State Fault Refusal := perform (resMem 7 (.atIdx .ix d) none) s

/-- `RES 7,(IX+d),A` (rule R525). -/
def execRes_7_atIXd_A (d : Byte) (s : State) : Host.Outcome State Fault Refusal := perform (resMem 7 (.atIdx .ix d) (some .a)) s

/-- `SET 0,(IX+d),B` (rule R528). -/
def execSet_0_atIXd_B (d : Byte) (s : State) : Host.Outcome State Fault Refusal := perform (setMem 0 (.atIdx .ix d) (some .b)) s

/-- `SET 0,(IX+d),C` (rule R528). -/
def execSet_0_atIXd_C (d : Byte) (s : State) : Host.Outcome State Fault Refusal := perform (setMem 0 (.atIdx .ix d) (some .c)) s

/-- `SET 0,(IX+d),D` (rule R528). -/
def execSet_0_atIXd_D (d : Byte) (s : State) : Host.Outcome State Fault Refusal := perform (setMem 0 (.atIdx .ix d) (some .d)) s

/-- `SET 0,(IX+d),E` (rule R528). -/
def execSet_0_atIXd_E (d : Byte) (s : State) : Host.Outcome State Fault Refusal := perform (setMem 0 (.atIdx .ix d) (some .e)) s

/-- `SET 0,(IX+d),H` (rule R528). -/
def execSet_0_atIXd_H (d : Byte) (s : State) : Host.Outcome State Fault Refusal := perform (setMem 0 (.atIdx .ix d) (some .h)) s

/-- `SET 0,(IX+d),L` (rule R528). -/
def execSet_0_atIXd_L (d : Byte) (s : State) : Host.Outcome State Fault Refusal := perform (setMem 0 (.atIdx .ix d) (some .l)) s

/-- `SET 0,(IX+d)` (rule R528). -/
def execSet_0_atIXd (d : Byte) (s : State) : Host.Outcome State Fault Refusal := perform (setMem 0 (.atIdx .ix d) none) s

/-- `SET 0,(IX+d),A` (rule R528). -/
def execSet_0_atIXd_A (d : Byte) (s : State) : Host.Outcome State Fault Refusal := perform (setMem 0 (.atIdx .ix d) (some .a)) s

/-- `SET 1,(IX+d),B` (rule R528). -/
def execSet_1_atIXd_B (d : Byte) (s : State) : Host.Outcome State Fault Refusal := perform (setMem 1 (.atIdx .ix d) (some .b)) s

/-- `SET 1,(IX+d),C` (rule R528). -/
def execSet_1_atIXd_C (d : Byte) (s : State) : Host.Outcome State Fault Refusal := perform (setMem 1 (.atIdx .ix d) (some .c)) s

/-- `SET 1,(IX+d),D` (rule R528). -/
def execSet_1_atIXd_D (d : Byte) (s : State) : Host.Outcome State Fault Refusal := perform (setMem 1 (.atIdx .ix d) (some .d)) s

/-- `SET 1,(IX+d),E` (rule R528). -/
def execSet_1_atIXd_E (d : Byte) (s : State) : Host.Outcome State Fault Refusal := perform (setMem 1 (.atIdx .ix d) (some .e)) s

/-- `SET 1,(IX+d),H` (rule R528). -/
def execSet_1_atIXd_H (d : Byte) (s : State) : Host.Outcome State Fault Refusal := perform (setMem 1 (.atIdx .ix d) (some .h)) s

/-- `SET 1,(IX+d),L` (rule R528). -/
def execSet_1_atIXd_L (d : Byte) (s : State) : Host.Outcome State Fault Refusal := perform (setMem 1 (.atIdx .ix d) (some .l)) s

/-- `SET 1,(IX+d)` (rule R528). -/
def execSet_1_atIXd (d : Byte) (s : State) : Host.Outcome State Fault Refusal := perform (setMem 1 (.atIdx .ix d) none) s

/-- `SET 1,(IX+d),A` (rule R528). -/
def execSet_1_atIXd_A (d : Byte) (s : State) : Host.Outcome State Fault Refusal := perform (setMem 1 (.atIdx .ix d) (some .a)) s

/-- `SET 2,(IX+d),B` (rule R528). -/
def execSet_2_atIXd_B (d : Byte) (s : State) : Host.Outcome State Fault Refusal := perform (setMem 2 (.atIdx .ix d) (some .b)) s

/-- `SET 2,(IX+d),C` (rule R528). -/
def execSet_2_atIXd_C (d : Byte) (s : State) : Host.Outcome State Fault Refusal := perform (setMem 2 (.atIdx .ix d) (some .c)) s

/-- `SET 2,(IX+d),D` (rule R528). -/
def execSet_2_atIXd_D (d : Byte) (s : State) : Host.Outcome State Fault Refusal := perform (setMem 2 (.atIdx .ix d) (some .d)) s

/-- `SET 2,(IX+d),E` (rule R528). -/
def execSet_2_atIXd_E (d : Byte) (s : State) : Host.Outcome State Fault Refusal := perform (setMem 2 (.atIdx .ix d) (some .e)) s

/-- `SET 2,(IX+d),H` (rule R528). -/
def execSet_2_atIXd_H (d : Byte) (s : State) : Host.Outcome State Fault Refusal := perform (setMem 2 (.atIdx .ix d) (some .h)) s

/-- `SET 2,(IX+d),L` (rule R528). -/
def execSet_2_atIXd_L (d : Byte) (s : State) : Host.Outcome State Fault Refusal := perform (setMem 2 (.atIdx .ix d) (some .l)) s

/-- `SET 2,(IX+d)` (rule R528). -/
def execSet_2_atIXd (d : Byte) (s : State) : Host.Outcome State Fault Refusal := perform (setMem 2 (.atIdx .ix d) none) s

/-- `SET 2,(IX+d),A` (rule R528). -/
def execSet_2_atIXd_A (d : Byte) (s : State) : Host.Outcome State Fault Refusal := perform (setMem 2 (.atIdx .ix d) (some .a)) s

/-- `SET 3,(IX+d),B` (rule R528). -/
def execSet_3_atIXd_B (d : Byte) (s : State) : Host.Outcome State Fault Refusal := perform (setMem 3 (.atIdx .ix d) (some .b)) s

/-- `SET 3,(IX+d),C` (rule R528). -/
def execSet_3_atIXd_C (d : Byte) (s : State) : Host.Outcome State Fault Refusal := perform (setMem 3 (.atIdx .ix d) (some .c)) s

/-- `SET 3,(IX+d),D` (rule R528). -/
def execSet_3_atIXd_D (d : Byte) (s : State) : Host.Outcome State Fault Refusal := perform (setMem 3 (.atIdx .ix d) (some .d)) s

/-- `SET 3,(IX+d),E` (rule R528). -/
def execSet_3_atIXd_E (d : Byte) (s : State) : Host.Outcome State Fault Refusal := perform (setMem 3 (.atIdx .ix d) (some .e)) s

/-- `SET 3,(IX+d),H` (rule R528). -/
def execSet_3_atIXd_H (d : Byte) (s : State) : Host.Outcome State Fault Refusal := perform (setMem 3 (.atIdx .ix d) (some .h)) s

/-- `SET 3,(IX+d),L` (rule R528). -/
def execSet_3_atIXd_L (d : Byte) (s : State) : Host.Outcome State Fault Refusal := perform (setMem 3 (.atIdx .ix d) (some .l)) s

/-- `SET 3,(IX+d)` (rule R528). -/
def execSet_3_atIXd (d : Byte) (s : State) : Host.Outcome State Fault Refusal := perform (setMem 3 (.atIdx .ix d) none) s

/-- `SET 3,(IX+d),A` (rule R528). -/
def execSet_3_atIXd_A (d : Byte) (s : State) : Host.Outcome State Fault Refusal := perform (setMem 3 (.atIdx .ix d) (some .a)) s

/-- `SET 4,(IX+d),B` (rule R528). -/
def execSet_4_atIXd_B (d : Byte) (s : State) : Host.Outcome State Fault Refusal := perform (setMem 4 (.atIdx .ix d) (some .b)) s

/-- `SET 4,(IX+d),C` (rule R528). -/
def execSet_4_atIXd_C (d : Byte) (s : State) : Host.Outcome State Fault Refusal := perform (setMem 4 (.atIdx .ix d) (some .c)) s

/-- `SET 4,(IX+d),D` (rule R528). -/
def execSet_4_atIXd_D (d : Byte) (s : State) : Host.Outcome State Fault Refusal := perform (setMem 4 (.atIdx .ix d) (some .d)) s

/-- `SET 4,(IX+d),E` (rule R528). -/
def execSet_4_atIXd_E (d : Byte) (s : State) : Host.Outcome State Fault Refusal := perform (setMem 4 (.atIdx .ix d) (some .e)) s

/-- `SET 4,(IX+d),H` (rule R528). -/
def execSet_4_atIXd_H (d : Byte) (s : State) : Host.Outcome State Fault Refusal := perform (setMem 4 (.atIdx .ix d) (some .h)) s

/-- `SET 4,(IX+d),L` (rule R528). -/
def execSet_4_atIXd_L (d : Byte) (s : State) : Host.Outcome State Fault Refusal := perform (setMem 4 (.atIdx .ix d) (some .l)) s

/-- `SET 4,(IX+d)` (rule R528). -/
def execSet_4_atIXd (d : Byte) (s : State) : Host.Outcome State Fault Refusal := perform (setMem 4 (.atIdx .ix d) none) s

/-- `SET 4,(IX+d),A` (rule R528). -/
def execSet_4_atIXd_A (d : Byte) (s : State) : Host.Outcome State Fault Refusal := perform (setMem 4 (.atIdx .ix d) (some .a)) s

/-- `SET 5,(IX+d),B` (rule R528). -/
def execSet_5_atIXd_B (d : Byte) (s : State) : Host.Outcome State Fault Refusal := perform (setMem 5 (.atIdx .ix d) (some .b)) s

/-- `SET 5,(IX+d),C` (rule R528). -/
def execSet_5_atIXd_C (d : Byte) (s : State) : Host.Outcome State Fault Refusal := perform (setMem 5 (.atIdx .ix d) (some .c)) s

/-- `SET 5,(IX+d),D` (rule R528). -/
def execSet_5_atIXd_D (d : Byte) (s : State) : Host.Outcome State Fault Refusal := perform (setMem 5 (.atIdx .ix d) (some .d)) s

/-- `SET 5,(IX+d),E` (rule R528). -/
def execSet_5_atIXd_E (d : Byte) (s : State) : Host.Outcome State Fault Refusal := perform (setMem 5 (.atIdx .ix d) (some .e)) s

/-- `SET 5,(IX+d),H` (rule R528). -/
def execSet_5_atIXd_H (d : Byte) (s : State) : Host.Outcome State Fault Refusal := perform (setMem 5 (.atIdx .ix d) (some .h)) s

/-- `SET 5,(IX+d),L` (rule R528). -/
def execSet_5_atIXd_L (d : Byte) (s : State) : Host.Outcome State Fault Refusal := perform (setMem 5 (.atIdx .ix d) (some .l)) s

/-- `SET 5,(IX+d)` (rule R528). -/
def execSet_5_atIXd (d : Byte) (s : State) : Host.Outcome State Fault Refusal := perform (setMem 5 (.atIdx .ix d) none) s

/-- `SET 5,(IX+d),A` (rule R528). -/
def execSet_5_atIXd_A (d : Byte) (s : State) : Host.Outcome State Fault Refusal := perform (setMem 5 (.atIdx .ix d) (some .a)) s

/-- `SET 6,(IX+d),B` (rule R528). -/
def execSet_6_atIXd_B (d : Byte) (s : State) : Host.Outcome State Fault Refusal := perform (setMem 6 (.atIdx .ix d) (some .b)) s

/-- `SET 6,(IX+d),C` (rule R528). -/
def execSet_6_atIXd_C (d : Byte) (s : State) : Host.Outcome State Fault Refusal := perform (setMem 6 (.atIdx .ix d) (some .c)) s

/-- `SET 6,(IX+d),D` (rule R528). -/
def execSet_6_atIXd_D (d : Byte) (s : State) : Host.Outcome State Fault Refusal := perform (setMem 6 (.atIdx .ix d) (some .d)) s

/-- `SET 6,(IX+d),E` (rule R528). -/
def execSet_6_atIXd_E (d : Byte) (s : State) : Host.Outcome State Fault Refusal := perform (setMem 6 (.atIdx .ix d) (some .e)) s

/-- `SET 6,(IX+d),H` (rule R528). -/
def execSet_6_atIXd_H (d : Byte) (s : State) : Host.Outcome State Fault Refusal := perform (setMem 6 (.atIdx .ix d) (some .h)) s

/-- `SET 6,(IX+d),L` (rule R528). -/
def execSet_6_atIXd_L (d : Byte) (s : State) : Host.Outcome State Fault Refusal := perform (setMem 6 (.atIdx .ix d) (some .l)) s

/-- `SET 6,(IX+d)` (rule R528). -/
def execSet_6_atIXd (d : Byte) (s : State) : Host.Outcome State Fault Refusal := perform (setMem 6 (.atIdx .ix d) none) s

/-- `SET 6,(IX+d),A` (rule R528). -/
def execSet_6_atIXd_A (d : Byte) (s : State) : Host.Outcome State Fault Refusal := perform (setMem 6 (.atIdx .ix d) (some .a)) s

/-- `SET 7,(IX+d),B` (rule R528). -/
def execSet_7_atIXd_B (d : Byte) (s : State) : Host.Outcome State Fault Refusal := perform (setMem 7 (.atIdx .ix d) (some .b)) s

/-- `SET 7,(IX+d),C` (rule R528). -/
def execSet_7_atIXd_C (d : Byte) (s : State) : Host.Outcome State Fault Refusal := perform (setMem 7 (.atIdx .ix d) (some .c)) s

/-- `SET 7,(IX+d),D` (rule R528). -/
def execSet_7_atIXd_D (d : Byte) (s : State) : Host.Outcome State Fault Refusal := perform (setMem 7 (.atIdx .ix d) (some .d)) s

/-- `SET 7,(IX+d),E` (rule R528). -/
def execSet_7_atIXd_E (d : Byte) (s : State) : Host.Outcome State Fault Refusal := perform (setMem 7 (.atIdx .ix d) (some .e)) s

/-- `SET 7,(IX+d),H` (rule R528). -/
def execSet_7_atIXd_H (d : Byte) (s : State) : Host.Outcome State Fault Refusal := perform (setMem 7 (.atIdx .ix d) (some .h)) s

/-- `SET 7,(IX+d),L` (rule R528). -/
def execSet_7_atIXd_L (d : Byte) (s : State) : Host.Outcome State Fault Refusal := perform (setMem 7 (.atIdx .ix d) (some .l)) s

/-- `SET 7,(IX+d)` (rule R528). -/
def execSet_7_atIXd (d : Byte) (s : State) : Host.Outcome State Fault Refusal := perform (setMem 7 (.atIdx .ix d) none) s

/-- `SET 7,(IX+d),A` (rule R528). -/
def execSet_7_atIXd_A (d : Byte) (s : State) : Host.Outcome State Fault Refusal := perform (setMem 7 (.atIdx .ix d) (some .a)) s

/-- `BIT 0,(IY+d)` (rule R522). -/
def execBit_0_atIYd (d : Byte) (s : State) : Host.Outcome State Fault Refusal := perform (bitIdx 0 .iy d) s

/-- `BIT 1,(IY+d)` (rule R522). -/
def execBit_1_atIYd (d : Byte) (s : State) : Host.Outcome State Fault Refusal := perform (bitIdx 1 .iy d) s

/-- `BIT 2,(IY+d)` (rule R522). -/
def execBit_2_atIYd (d : Byte) (s : State) : Host.Outcome State Fault Refusal := perform (bitIdx 2 .iy d) s

/-- `BIT 3,(IY+d)` (rule R522). -/
def execBit_3_atIYd (d : Byte) (s : State) : Host.Outcome State Fault Refusal := perform (bitIdx 3 .iy d) s

/-- `BIT 4,(IY+d)` (rule R522). -/
def execBit_4_atIYd (d : Byte) (s : State) : Host.Outcome State Fault Refusal := perform (bitIdx 4 .iy d) s

/-- `BIT 5,(IY+d)` (rule R522). -/
def execBit_5_atIYd (d : Byte) (s : State) : Host.Outcome State Fault Refusal := perform (bitIdx 5 .iy d) s

/-- `BIT 6,(IY+d)` (rule R522). -/
def execBit_6_atIYd (d : Byte) (s : State) : Host.Outcome State Fault Refusal := perform (bitIdx 6 .iy d) s

/-- `BIT 7,(IY+d)` (rule R522). -/
def execBit_7_atIYd (d : Byte) (s : State) : Host.Outcome State Fault Refusal := perform (bitIdx 7 .iy d) s

/-- `RES 0,(IY+d),B` (rule R525). -/
def execRes_0_atIYd_B (d : Byte) (s : State) : Host.Outcome State Fault Refusal := perform (resMem 0 (.atIdx .iy d) (some .b)) s

/-- `RES 0,(IY+d),C` (rule R525). -/
def execRes_0_atIYd_C (d : Byte) (s : State) : Host.Outcome State Fault Refusal := perform (resMem 0 (.atIdx .iy d) (some .c)) s

/-- `RES 0,(IY+d),D` (rule R525). -/
def execRes_0_atIYd_D (d : Byte) (s : State) : Host.Outcome State Fault Refusal := perform (resMem 0 (.atIdx .iy d) (some .d)) s

/-- `RES 0,(IY+d),E` (rule R525). -/
def execRes_0_atIYd_E (d : Byte) (s : State) : Host.Outcome State Fault Refusal := perform (resMem 0 (.atIdx .iy d) (some .e)) s

/-- `RES 0,(IY+d),H` (rule R525). -/
def execRes_0_atIYd_H (d : Byte) (s : State) : Host.Outcome State Fault Refusal := perform (resMem 0 (.atIdx .iy d) (some .h)) s

/-- `RES 0,(IY+d),L` (rule R525). -/
def execRes_0_atIYd_L (d : Byte) (s : State) : Host.Outcome State Fault Refusal := perform (resMem 0 (.atIdx .iy d) (some .l)) s

/-- `RES 0,(IY+d)` (rule R525). -/
def execRes_0_atIYd (d : Byte) (s : State) : Host.Outcome State Fault Refusal := perform (resMem 0 (.atIdx .iy d) none) s

/-- `RES 0,(IY+d),A` (rule R525). -/
def execRes_0_atIYd_A (d : Byte) (s : State) : Host.Outcome State Fault Refusal := perform (resMem 0 (.atIdx .iy d) (some .a)) s

/-- `RES 1,(IY+d),B` (rule R525). -/
def execRes_1_atIYd_B (d : Byte) (s : State) : Host.Outcome State Fault Refusal := perform (resMem 1 (.atIdx .iy d) (some .b)) s

/-- `RES 1,(IY+d),C` (rule R525). -/
def execRes_1_atIYd_C (d : Byte) (s : State) : Host.Outcome State Fault Refusal := perform (resMem 1 (.atIdx .iy d) (some .c)) s

/-- `RES 1,(IY+d),D` (rule R525). -/
def execRes_1_atIYd_D (d : Byte) (s : State) : Host.Outcome State Fault Refusal := perform (resMem 1 (.atIdx .iy d) (some .d)) s

/-- `RES 1,(IY+d),E` (rule R525). -/
def execRes_1_atIYd_E (d : Byte) (s : State) : Host.Outcome State Fault Refusal := perform (resMem 1 (.atIdx .iy d) (some .e)) s

/-- `RES 1,(IY+d),H` (rule R525). -/
def execRes_1_atIYd_H (d : Byte) (s : State) : Host.Outcome State Fault Refusal := perform (resMem 1 (.atIdx .iy d) (some .h)) s

/-- `RES 1,(IY+d),L` (rule R525). -/
def execRes_1_atIYd_L (d : Byte) (s : State) : Host.Outcome State Fault Refusal := perform (resMem 1 (.atIdx .iy d) (some .l)) s

/-- `RES 1,(IY+d)` (rule R525). -/
def execRes_1_atIYd (d : Byte) (s : State) : Host.Outcome State Fault Refusal := perform (resMem 1 (.atIdx .iy d) none) s

/-- `RES 1,(IY+d),A` (rule R525). -/
def execRes_1_atIYd_A (d : Byte) (s : State) : Host.Outcome State Fault Refusal := perform (resMem 1 (.atIdx .iy d) (some .a)) s

/-- `RES 2,(IY+d),B` (rule R525). -/
def execRes_2_atIYd_B (d : Byte) (s : State) : Host.Outcome State Fault Refusal := perform (resMem 2 (.atIdx .iy d) (some .b)) s

/-- `RES 2,(IY+d),C` (rule R525). -/
def execRes_2_atIYd_C (d : Byte) (s : State) : Host.Outcome State Fault Refusal := perform (resMem 2 (.atIdx .iy d) (some .c)) s

/-- `RES 2,(IY+d),D` (rule R525). -/
def execRes_2_atIYd_D (d : Byte) (s : State) : Host.Outcome State Fault Refusal := perform (resMem 2 (.atIdx .iy d) (some .d)) s

/-- `RES 2,(IY+d),E` (rule R525). -/
def execRes_2_atIYd_E (d : Byte) (s : State) : Host.Outcome State Fault Refusal := perform (resMem 2 (.atIdx .iy d) (some .e)) s

/-- `RES 2,(IY+d),H` (rule R525). -/
def execRes_2_atIYd_H (d : Byte) (s : State) : Host.Outcome State Fault Refusal := perform (resMem 2 (.atIdx .iy d) (some .h)) s

/-- `RES 2,(IY+d),L` (rule R525). -/
def execRes_2_atIYd_L (d : Byte) (s : State) : Host.Outcome State Fault Refusal := perform (resMem 2 (.atIdx .iy d) (some .l)) s

/-- `RES 2,(IY+d)` (rule R525). -/
def execRes_2_atIYd (d : Byte) (s : State) : Host.Outcome State Fault Refusal := perform (resMem 2 (.atIdx .iy d) none) s

/-- `RES 2,(IY+d),A` (rule R525). -/
def execRes_2_atIYd_A (d : Byte) (s : State) : Host.Outcome State Fault Refusal := perform (resMem 2 (.atIdx .iy d) (some .a)) s

/-- `RES 3,(IY+d),B` (rule R525). -/
def execRes_3_atIYd_B (d : Byte) (s : State) : Host.Outcome State Fault Refusal := perform (resMem 3 (.atIdx .iy d) (some .b)) s

/-- `RES 3,(IY+d),C` (rule R525). -/
def execRes_3_atIYd_C (d : Byte) (s : State) : Host.Outcome State Fault Refusal := perform (resMem 3 (.atIdx .iy d) (some .c)) s

/-- `RES 3,(IY+d),D` (rule R525). -/
def execRes_3_atIYd_D (d : Byte) (s : State) : Host.Outcome State Fault Refusal := perform (resMem 3 (.atIdx .iy d) (some .d)) s

/-- `RES 3,(IY+d),E` (rule R525). -/
def execRes_3_atIYd_E (d : Byte) (s : State) : Host.Outcome State Fault Refusal := perform (resMem 3 (.atIdx .iy d) (some .e)) s

/-- `RES 3,(IY+d),H` (rule R525). -/
def execRes_3_atIYd_H (d : Byte) (s : State) : Host.Outcome State Fault Refusal := perform (resMem 3 (.atIdx .iy d) (some .h)) s

/-- `RES 3,(IY+d),L` (rule R525). -/
def execRes_3_atIYd_L (d : Byte) (s : State) : Host.Outcome State Fault Refusal := perform (resMem 3 (.atIdx .iy d) (some .l)) s

/-- `RES 3,(IY+d)` (rule R525). -/
def execRes_3_atIYd (d : Byte) (s : State) : Host.Outcome State Fault Refusal := perform (resMem 3 (.atIdx .iy d) none) s

/-- `RES 3,(IY+d),A` (rule R525). -/
def execRes_3_atIYd_A (d : Byte) (s : State) : Host.Outcome State Fault Refusal := perform (resMem 3 (.atIdx .iy d) (some .a)) s

/-- `RES 4,(IY+d),B` (rule R525). -/
def execRes_4_atIYd_B (d : Byte) (s : State) : Host.Outcome State Fault Refusal := perform (resMem 4 (.atIdx .iy d) (some .b)) s

/-- `RES 4,(IY+d),C` (rule R525). -/
def execRes_4_atIYd_C (d : Byte) (s : State) : Host.Outcome State Fault Refusal := perform (resMem 4 (.atIdx .iy d) (some .c)) s

/-- `RES 4,(IY+d),D` (rule R525). -/
def execRes_4_atIYd_D (d : Byte) (s : State) : Host.Outcome State Fault Refusal := perform (resMem 4 (.atIdx .iy d) (some .d)) s

/-- `RES 4,(IY+d),E` (rule R525). -/
def execRes_4_atIYd_E (d : Byte) (s : State) : Host.Outcome State Fault Refusal := perform (resMem 4 (.atIdx .iy d) (some .e)) s

/-- `RES 4,(IY+d),H` (rule R525). -/
def execRes_4_atIYd_H (d : Byte) (s : State) : Host.Outcome State Fault Refusal := perform (resMem 4 (.atIdx .iy d) (some .h)) s

/-- `RES 4,(IY+d),L` (rule R525). -/
def execRes_4_atIYd_L (d : Byte) (s : State) : Host.Outcome State Fault Refusal := perform (resMem 4 (.atIdx .iy d) (some .l)) s

/-- `RES 4,(IY+d)` (rule R525). -/
def execRes_4_atIYd (d : Byte) (s : State) : Host.Outcome State Fault Refusal := perform (resMem 4 (.atIdx .iy d) none) s

/-- `RES 4,(IY+d),A` (rule R525). -/
def execRes_4_atIYd_A (d : Byte) (s : State) : Host.Outcome State Fault Refusal := perform (resMem 4 (.atIdx .iy d) (some .a)) s

/-- `RES 5,(IY+d),B` (rule R525). -/
def execRes_5_atIYd_B (d : Byte) (s : State) : Host.Outcome State Fault Refusal := perform (resMem 5 (.atIdx .iy d) (some .b)) s

/-- `RES 5,(IY+d),C` (rule R525). -/
def execRes_5_atIYd_C (d : Byte) (s : State) : Host.Outcome State Fault Refusal := perform (resMem 5 (.atIdx .iy d) (some .c)) s

/-- `RES 5,(IY+d),D` (rule R525). -/
def execRes_5_atIYd_D (d : Byte) (s : State) : Host.Outcome State Fault Refusal := perform (resMem 5 (.atIdx .iy d) (some .d)) s

/-- `RES 5,(IY+d),E` (rule R525). -/
def execRes_5_atIYd_E (d : Byte) (s : State) : Host.Outcome State Fault Refusal := perform (resMem 5 (.atIdx .iy d) (some .e)) s

/-- `RES 5,(IY+d),H` (rule R525). -/
def execRes_5_atIYd_H (d : Byte) (s : State) : Host.Outcome State Fault Refusal := perform (resMem 5 (.atIdx .iy d) (some .h)) s

/-- `RES 5,(IY+d),L` (rule R525). -/
def execRes_5_atIYd_L (d : Byte) (s : State) : Host.Outcome State Fault Refusal := perform (resMem 5 (.atIdx .iy d) (some .l)) s

/-- `RES 5,(IY+d)` (rule R525). -/
def execRes_5_atIYd (d : Byte) (s : State) : Host.Outcome State Fault Refusal := perform (resMem 5 (.atIdx .iy d) none) s

/-- `RES 5,(IY+d),A` (rule R525). -/
def execRes_5_atIYd_A (d : Byte) (s : State) : Host.Outcome State Fault Refusal := perform (resMem 5 (.atIdx .iy d) (some .a)) s

/-- `RES 6,(IY+d),B` (rule R525). -/
def execRes_6_atIYd_B (d : Byte) (s : State) : Host.Outcome State Fault Refusal := perform (resMem 6 (.atIdx .iy d) (some .b)) s

/-- `RES 6,(IY+d),C` (rule R525). -/
def execRes_6_atIYd_C (d : Byte) (s : State) : Host.Outcome State Fault Refusal := perform (resMem 6 (.atIdx .iy d) (some .c)) s

/-- `RES 6,(IY+d),D` (rule R525). -/
def execRes_6_atIYd_D (d : Byte) (s : State) : Host.Outcome State Fault Refusal := perform (resMem 6 (.atIdx .iy d) (some .d)) s

/-- `RES 6,(IY+d),E` (rule R525). -/
def execRes_6_atIYd_E (d : Byte) (s : State) : Host.Outcome State Fault Refusal := perform (resMem 6 (.atIdx .iy d) (some .e)) s

/-- `RES 6,(IY+d),H` (rule R525). -/
def execRes_6_atIYd_H (d : Byte) (s : State) : Host.Outcome State Fault Refusal := perform (resMem 6 (.atIdx .iy d) (some .h)) s

/-- `RES 6,(IY+d),L` (rule R525). -/
def execRes_6_atIYd_L (d : Byte) (s : State) : Host.Outcome State Fault Refusal := perform (resMem 6 (.atIdx .iy d) (some .l)) s

/-- `RES 6,(IY+d)` (rule R525). -/
def execRes_6_atIYd (d : Byte) (s : State) : Host.Outcome State Fault Refusal := perform (resMem 6 (.atIdx .iy d) none) s

/-- `RES 6,(IY+d),A` (rule R525). -/
def execRes_6_atIYd_A (d : Byte) (s : State) : Host.Outcome State Fault Refusal := perform (resMem 6 (.atIdx .iy d) (some .a)) s

/-- `RES 7,(IY+d),B` (rule R525). -/
def execRes_7_atIYd_B (d : Byte) (s : State) : Host.Outcome State Fault Refusal := perform (resMem 7 (.atIdx .iy d) (some .b)) s

/-- `RES 7,(IY+d),C` (rule R525). -/
def execRes_7_atIYd_C (d : Byte) (s : State) : Host.Outcome State Fault Refusal := perform (resMem 7 (.atIdx .iy d) (some .c)) s

/-- `RES 7,(IY+d),D` (rule R525). -/
def execRes_7_atIYd_D (d : Byte) (s : State) : Host.Outcome State Fault Refusal := perform (resMem 7 (.atIdx .iy d) (some .d)) s

/-- `RES 7,(IY+d),E` (rule R525). -/
def execRes_7_atIYd_E (d : Byte) (s : State) : Host.Outcome State Fault Refusal := perform (resMem 7 (.atIdx .iy d) (some .e)) s

/-- `RES 7,(IY+d),H` (rule R525). -/
def execRes_7_atIYd_H (d : Byte) (s : State) : Host.Outcome State Fault Refusal := perform (resMem 7 (.atIdx .iy d) (some .h)) s

/-- `RES 7,(IY+d),L` (rule R525). -/
def execRes_7_atIYd_L (d : Byte) (s : State) : Host.Outcome State Fault Refusal := perform (resMem 7 (.atIdx .iy d) (some .l)) s

/-- `RES 7,(IY+d)` (rule R525). -/
def execRes_7_atIYd (d : Byte) (s : State) : Host.Outcome State Fault Refusal := perform (resMem 7 (.atIdx .iy d) none) s

/-- `RES 7,(IY+d),A` (rule R525). -/
def execRes_7_atIYd_A (d : Byte) (s : State) : Host.Outcome State Fault Refusal := perform (resMem 7 (.atIdx .iy d) (some .a)) s

/-- `SET 0,(IY+d),B` (rule R528). -/
def execSet_0_atIYd_B (d : Byte) (s : State) : Host.Outcome State Fault Refusal := perform (setMem 0 (.atIdx .iy d) (some .b)) s

/-- `SET 0,(IY+d),C` (rule R528). -/
def execSet_0_atIYd_C (d : Byte) (s : State) : Host.Outcome State Fault Refusal := perform (setMem 0 (.atIdx .iy d) (some .c)) s

/-- `SET 0,(IY+d),D` (rule R528). -/
def execSet_0_atIYd_D (d : Byte) (s : State) : Host.Outcome State Fault Refusal := perform (setMem 0 (.atIdx .iy d) (some .d)) s

/-- `SET 0,(IY+d),E` (rule R528). -/
def execSet_0_atIYd_E (d : Byte) (s : State) : Host.Outcome State Fault Refusal := perform (setMem 0 (.atIdx .iy d) (some .e)) s

/-- `SET 0,(IY+d),H` (rule R528). -/
def execSet_0_atIYd_H (d : Byte) (s : State) : Host.Outcome State Fault Refusal := perform (setMem 0 (.atIdx .iy d) (some .h)) s

/-- `SET 0,(IY+d),L` (rule R528). -/
def execSet_0_atIYd_L (d : Byte) (s : State) : Host.Outcome State Fault Refusal := perform (setMem 0 (.atIdx .iy d) (some .l)) s

/-- `SET 0,(IY+d)` (rule R528). -/
def execSet_0_atIYd (d : Byte) (s : State) : Host.Outcome State Fault Refusal := perform (setMem 0 (.atIdx .iy d) none) s

/-- `SET 0,(IY+d),A` (rule R528). -/
def execSet_0_atIYd_A (d : Byte) (s : State) : Host.Outcome State Fault Refusal := perform (setMem 0 (.atIdx .iy d) (some .a)) s

/-- `SET 1,(IY+d),B` (rule R528). -/
def execSet_1_atIYd_B (d : Byte) (s : State) : Host.Outcome State Fault Refusal := perform (setMem 1 (.atIdx .iy d) (some .b)) s

/-- `SET 1,(IY+d),C` (rule R528). -/
def execSet_1_atIYd_C (d : Byte) (s : State) : Host.Outcome State Fault Refusal := perform (setMem 1 (.atIdx .iy d) (some .c)) s

/-- `SET 1,(IY+d),D` (rule R528). -/
def execSet_1_atIYd_D (d : Byte) (s : State) : Host.Outcome State Fault Refusal := perform (setMem 1 (.atIdx .iy d) (some .d)) s

/-- `SET 1,(IY+d),E` (rule R528). -/
def execSet_1_atIYd_E (d : Byte) (s : State) : Host.Outcome State Fault Refusal := perform (setMem 1 (.atIdx .iy d) (some .e)) s

/-- `SET 1,(IY+d),H` (rule R528). -/
def execSet_1_atIYd_H (d : Byte) (s : State) : Host.Outcome State Fault Refusal := perform (setMem 1 (.atIdx .iy d) (some .h)) s

/-- `SET 1,(IY+d),L` (rule R528). -/
def execSet_1_atIYd_L (d : Byte) (s : State) : Host.Outcome State Fault Refusal := perform (setMem 1 (.atIdx .iy d) (some .l)) s

/-- `SET 1,(IY+d)` (rule R528). -/
def execSet_1_atIYd (d : Byte) (s : State) : Host.Outcome State Fault Refusal := perform (setMem 1 (.atIdx .iy d) none) s

/-- `SET 1,(IY+d),A` (rule R528). -/
def execSet_1_atIYd_A (d : Byte) (s : State) : Host.Outcome State Fault Refusal := perform (setMem 1 (.atIdx .iy d) (some .a)) s

/-- `SET 2,(IY+d),B` (rule R528). -/
def execSet_2_atIYd_B (d : Byte) (s : State) : Host.Outcome State Fault Refusal := perform (setMem 2 (.atIdx .iy d) (some .b)) s

/-- `SET 2,(IY+d),C` (rule R528). -/
def execSet_2_atIYd_C (d : Byte) (s : State) : Host.Outcome State Fault Refusal := perform (setMem 2 (.atIdx .iy d) (some .c)) s

/-- `SET 2,(IY+d),D` (rule R528). -/
def execSet_2_atIYd_D (d : Byte) (s : State) : Host.Outcome State Fault Refusal := perform (setMem 2 (.atIdx .iy d) (some .d)) s

/-- `SET 2,(IY+d),E` (rule R528). -/
def execSet_2_atIYd_E (d : Byte) (s : State) : Host.Outcome State Fault Refusal := perform (setMem 2 (.atIdx .iy d) (some .e)) s

/-- `SET 2,(IY+d),H` (rule R528). -/
def execSet_2_atIYd_H (d : Byte) (s : State) : Host.Outcome State Fault Refusal := perform (setMem 2 (.atIdx .iy d) (some .h)) s

/-- `SET 2,(IY+d),L` (rule R528). -/
def execSet_2_atIYd_L (d : Byte) (s : State) : Host.Outcome State Fault Refusal := perform (setMem 2 (.atIdx .iy d) (some .l)) s

/-- `SET 2,(IY+d)` (rule R528). -/
def execSet_2_atIYd (d : Byte) (s : State) : Host.Outcome State Fault Refusal := perform (setMem 2 (.atIdx .iy d) none) s

/-- `SET 2,(IY+d),A` (rule R528). -/
def execSet_2_atIYd_A (d : Byte) (s : State) : Host.Outcome State Fault Refusal := perform (setMem 2 (.atIdx .iy d) (some .a)) s

/-- `SET 3,(IY+d),B` (rule R528). -/
def execSet_3_atIYd_B (d : Byte) (s : State) : Host.Outcome State Fault Refusal := perform (setMem 3 (.atIdx .iy d) (some .b)) s

/-- `SET 3,(IY+d),C` (rule R528). -/
def execSet_3_atIYd_C (d : Byte) (s : State) : Host.Outcome State Fault Refusal := perform (setMem 3 (.atIdx .iy d) (some .c)) s

/-- `SET 3,(IY+d),D` (rule R528). -/
def execSet_3_atIYd_D (d : Byte) (s : State) : Host.Outcome State Fault Refusal := perform (setMem 3 (.atIdx .iy d) (some .d)) s

/-- `SET 3,(IY+d),E` (rule R528). -/
def execSet_3_atIYd_E (d : Byte) (s : State) : Host.Outcome State Fault Refusal := perform (setMem 3 (.atIdx .iy d) (some .e)) s

/-- `SET 3,(IY+d),H` (rule R528). -/
def execSet_3_atIYd_H (d : Byte) (s : State) : Host.Outcome State Fault Refusal := perform (setMem 3 (.atIdx .iy d) (some .h)) s

/-- `SET 3,(IY+d),L` (rule R528). -/
def execSet_3_atIYd_L (d : Byte) (s : State) : Host.Outcome State Fault Refusal := perform (setMem 3 (.atIdx .iy d) (some .l)) s

/-- `SET 3,(IY+d)` (rule R528). -/
def execSet_3_atIYd (d : Byte) (s : State) : Host.Outcome State Fault Refusal := perform (setMem 3 (.atIdx .iy d) none) s

/-- `SET 3,(IY+d),A` (rule R528). -/
def execSet_3_atIYd_A (d : Byte) (s : State) : Host.Outcome State Fault Refusal := perform (setMem 3 (.atIdx .iy d) (some .a)) s

/-- `SET 4,(IY+d),B` (rule R528). -/
def execSet_4_atIYd_B (d : Byte) (s : State) : Host.Outcome State Fault Refusal := perform (setMem 4 (.atIdx .iy d) (some .b)) s

/-- `SET 4,(IY+d),C` (rule R528). -/
def execSet_4_atIYd_C (d : Byte) (s : State) : Host.Outcome State Fault Refusal := perform (setMem 4 (.atIdx .iy d) (some .c)) s

/-- `SET 4,(IY+d),D` (rule R528). -/
def execSet_4_atIYd_D (d : Byte) (s : State) : Host.Outcome State Fault Refusal := perform (setMem 4 (.atIdx .iy d) (some .d)) s

/-- `SET 4,(IY+d),E` (rule R528). -/
def execSet_4_atIYd_E (d : Byte) (s : State) : Host.Outcome State Fault Refusal := perform (setMem 4 (.atIdx .iy d) (some .e)) s

/-- `SET 4,(IY+d),H` (rule R528). -/
def execSet_4_atIYd_H (d : Byte) (s : State) : Host.Outcome State Fault Refusal := perform (setMem 4 (.atIdx .iy d) (some .h)) s

/-- `SET 4,(IY+d),L` (rule R528). -/
def execSet_4_atIYd_L (d : Byte) (s : State) : Host.Outcome State Fault Refusal := perform (setMem 4 (.atIdx .iy d) (some .l)) s

/-- `SET 4,(IY+d)` (rule R528). -/
def execSet_4_atIYd (d : Byte) (s : State) : Host.Outcome State Fault Refusal := perform (setMem 4 (.atIdx .iy d) none) s

/-- `SET 4,(IY+d),A` (rule R528). -/
def execSet_4_atIYd_A (d : Byte) (s : State) : Host.Outcome State Fault Refusal := perform (setMem 4 (.atIdx .iy d) (some .a)) s

/-- `SET 5,(IY+d),B` (rule R528). -/
def execSet_5_atIYd_B (d : Byte) (s : State) : Host.Outcome State Fault Refusal := perform (setMem 5 (.atIdx .iy d) (some .b)) s

/-- `SET 5,(IY+d),C` (rule R528). -/
def execSet_5_atIYd_C (d : Byte) (s : State) : Host.Outcome State Fault Refusal := perform (setMem 5 (.atIdx .iy d) (some .c)) s

/-- `SET 5,(IY+d),D` (rule R528). -/
def execSet_5_atIYd_D (d : Byte) (s : State) : Host.Outcome State Fault Refusal := perform (setMem 5 (.atIdx .iy d) (some .d)) s

/-- `SET 5,(IY+d),E` (rule R528). -/
def execSet_5_atIYd_E (d : Byte) (s : State) : Host.Outcome State Fault Refusal := perform (setMem 5 (.atIdx .iy d) (some .e)) s

/-- `SET 5,(IY+d),H` (rule R528). -/
def execSet_5_atIYd_H (d : Byte) (s : State) : Host.Outcome State Fault Refusal := perform (setMem 5 (.atIdx .iy d) (some .h)) s

/-- `SET 5,(IY+d),L` (rule R528). -/
def execSet_5_atIYd_L (d : Byte) (s : State) : Host.Outcome State Fault Refusal := perform (setMem 5 (.atIdx .iy d) (some .l)) s

/-- `SET 5,(IY+d)` (rule R528). -/
def execSet_5_atIYd (d : Byte) (s : State) : Host.Outcome State Fault Refusal := perform (setMem 5 (.atIdx .iy d) none) s

/-- `SET 5,(IY+d),A` (rule R528). -/
def execSet_5_atIYd_A (d : Byte) (s : State) : Host.Outcome State Fault Refusal := perform (setMem 5 (.atIdx .iy d) (some .a)) s

/-- `SET 6,(IY+d),B` (rule R528). -/
def execSet_6_atIYd_B (d : Byte) (s : State) : Host.Outcome State Fault Refusal := perform (setMem 6 (.atIdx .iy d) (some .b)) s

/-- `SET 6,(IY+d),C` (rule R528). -/
def execSet_6_atIYd_C (d : Byte) (s : State) : Host.Outcome State Fault Refusal := perform (setMem 6 (.atIdx .iy d) (some .c)) s

/-- `SET 6,(IY+d),D` (rule R528). -/
def execSet_6_atIYd_D (d : Byte) (s : State) : Host.Outcome State Fault Refusal := perform (setMem 6 (.atIdx .iy d) (some .d)) s

/-- `SET 6,(IY+d),E` (rule R528). -/
def execSet_6_atIYd_E (d : Byte) (s : State) : Host.Outcome State Fault Refusal := perform (setMem 6 (.atIdx .iy d) (some .e)) s

/-- `SET 6,(IY+d),H` (rule R528). -/
def execSet_6_atIYd_H (d : Byte) (s : State) : Host.Outcome State Fault Refusal := perform (setMem 6 (.atIdx .iy d) (some .h)) s

/-- `SET 6,(IY+d),L` (rule R528). -/
def execSet_6_atIYd_L (d : Byte) (s : State) : Host.Outcome State Fault Refusal := perform (setMem 6 (.atIdx .iy d) (some .l)) s

/-- `SET 6,(IY+d)` (rule R528). -/
def execSet_6_atIYd (d : Byte) (s : State) : Host.Outcome State Fault Refusal := perform (setMem 6 (.atIdx .iy d) none) s

/-- `SET 6,(IY+d),A` (rule R528). -/
def execSet_6_atIYd_A (d : Byte) (s : State) : Host.Outcome State Fault Refusal := perform (setMem 6 (.atIdx .iy d) (some .a)) s

/-- `SET 7,(IY+d),B` (rule R528). -/
def execSet_7_atIYd_B (d : Byte) (s : State) : Host.Outcome State Fault Refusal := perform (setMem 7 (.atIdx .iy d) (some .b)) s

/-- `SET 7,(IY+d),C` (rule R528). -/
def execSet_7_atIYd_C (d : Byte) (s : State) : Host.Outcome State Fault Refusal := perform (setMem 7 (.atIdx .iy d) (some .c)) s

/-- `SET 7,(IY+d),D` (rule R528). -/
def execSet_7_atIYd_D (d : Byte) (s : State) : Host.Outcome State Fault Refusal := perform (setMem 7 (.atIdx .iy d) (some .d)) s

/-- `SET 7,(IY+d),E` (rule R528). -/
def execSet_7_atIYd_E (d : Byte) (s : State) : Host.Outcome State Fault Refusal := perform (setMem 7 (.atIdx .iy d) (some .e)) s

/-- `SET 7,(IY+d),H` (rule R528). -/
def execSet_7_atIYd_H (d : Byte) (s : State) : Host.Outcome State Fault Refusal := perform (setMem 7 (.atIdx .iy d) (some .h)) s

/-- `SET 7,(IY+d),L` (rule R528). -/
def execSet_7_atIYd_L (d : Byte) (s : State) : Host.Outcome State Fault Refusal := perform (setMem 7 (.atIdx .iy d) (some .l)) s

/-- `SET 7,(IY+d)` (rule R528). -/
def execSet_7_atIYd (d : Byte) (s : State) : Host.Outcome State Fault Refusal := perform (setMem 7 (.atIdx .iy d) none) s

/-- `SET 7,(IY+d),A` (rule R528). -/
def execSet_7_atIYd_A (d : Byte) (s : State) : Host.Outcome State Fault Refusal := perform (setMem 7 (.atIdx .iy d) (some .a)) s

end Sys2Proof.Machine
end

