-- ==== Sys2Proof/Machine/Control.lean ====
section
/-! DEFINITION. General-purpose arithmetic and CPU control (44_control.md). -/

namespace Sys2Proof.Machine

/-! ## Shared operations -/

/-- Rule R440. -/
def daa : M Unit := modRegs fun g => g.setAF (daaResult g.a g.flags)

/-- Rule R441. -/
def cpl : M Unit := modRegs fun g => g.setAF (cplResult g.a g.flags)

/-- Rule R442. -/
def neg : M Unit := modRegs fun g => g.setAF (sub8 0 g.a false)

/-- Rule R443. -/
def ccf : M Unit := modRegs fun g => g.setFlags (ccfFlags g.a g.flags)

/-- Rule R444. -/
def scf : M Unit := modRegs fun g => g.setFlags (scfFlags g.a g.flags)

/-- Rule R445: the M1 cycle is all of it. -/
def nop : M Unit := return ()

/-- Rule R446: the two M1 cycles are all of it. -/
def edNop : M Unit := return ()

/-- Rule R447: PC stays at the HALT byte. -/
def halt : M Unit := modRegs fun g => { g with halted := true, pc := g.pc - 1 }

/-- Rule R448. -/
def di : M Unit := modRegs fun g => { g with iff1 := false, iff2 := false }

/-- Rule R449: that `int_block` is true at the next boundary is the boundary step's (`completeInstr`). -/
def ei : M Unit := modRegs fun g => { g with iff1 := true, iff2 := true }

/-- Rule R452. -/
def setIm (m : IntMode) : M Unit := modRegs fun g => { g with im := m }

/-! ## One meaning per instruction -/

/-- `NOP` (rule R445). -/
def execNop (s : State) : Host.Outcome State Fault Refusal := perform nop s

/-- `DAA` (rule R440). -/
def execDaa (s : State) : Host.Outcome State Fault Refusal := perform daa s

/-- `CPL` (rule R441). -/
def execCpl (s : State) : Host.Outcome State Fault Refusal := perform cpl s

/-- `SCF` (rule R444). -/
def execScf (s : State) : Host.Outcome State Fault Refusal := perform scf s

/-- `CCF` (rule R443). -/
def execCcf (s : State) : Host.Outcome State Fault Refusal := perform ccf s

/-- `HALT` (rule R447). -/
def execHalt (s : State) : Host.Outcome State Fault Refusal := perform halt s

/-- `DI` (rule R448). -/
def execDi (s : State) : Host.Outcome State Fault Refusal := perform di s

/-- `EI` (rule R449). -/
def execEi (s : State) : Host.Outcome State Fault Refusal := perform ei s

/-- `ED NOP` (rule R446). -/
def execEdNop (s : State) : Host.Outcome State Fault Refusal := perform edNop s

/-- `NEG` (rule R442). -/
def execNeg (s : State) : Host.Outcome State Fault Refusal := perform neg s

/-- `IM 0` (rule R452). -/
def execIm_0 (s : State) : Host.Outcome State Fault Refusal := perform (setIm .im0) s

/-- `IM 0/1` (rule R452). -/
def execIm_0_1 (s : State) : Host.Outcome State Fault Refusal := perform (setIm Config.im01Mode) s

/-- `IM 1` (rule R452). -/
def execIm_1 (s : State) : Host.Outcome State Fault Refusal := perform (setIm .im1) s

/-- `IM 2` (rule R452). -/
def execIm_2 (s : State) : Host.Outcome State Fault Refusal := perform (setIm .im2) s

end Sys2Proof.Machine
end

