-- ==== Sys2Proof/Machine/Exchange.lean ====
section
/-! DEFINITION. Exchanges, block transfer and block search (42_exchange_block.md). -/

namespace Sys2Proof.Machine

/-! ## Shared operations -/

/-- Rule R360. -/
def exAF : M Unit := modRegs fun g => { g with a := g.a', f := g.f', a' := g.a, f' := g.f }

/-- Rule R361. -/
def exDEHL : M Unit := modRegs fun g => { g with d := g.h, e := g.l, h := g.d, l := g.e }

/-- Rule R362. -/
def exx : M Unit := modRegs fun g =>
  { g with b := g.b', c := g.c', d := g.d', e := g.e', h := g.h', l := g.l'
           b' := g.b, c' := g.c, d' := g.d, e' := g.e, h' := g.h, l' := g.l }

/-- Rules R363 and R364. -/
def exSp (r : Reg16) : M Unit := do
  let sp ← getReg16 .sp
  let l ← mr sp
  let h ← mr (sp + 1)
  internal (sp + 1) 1
  mw (sp + 1) (hi (← getReg16 r))
  mw sp (lo (← getReg16 r))
  internal sp 2
  putReg16 r (mkWord h l)
  modRegs fun g => { g with wz := mkWord h l }

/-- `inc`: +1 for the I forms and -1 for the D forms (rule R365). -/
def blockInc : Dir → Word
  | .up => 1
  | .down => 0xFFFF

/-- `PC <- PC - 2`: back to the ED byte (rule R365). -/
def repeatPc (g : Regs) : Regs := { g with pc := g.pc - 2 }

/-- LDI, LDIR, LDD and LDDR (rules R366 to R369). -/
def ldBlock (dir : Dir) (rep : Bool) : M Unit := do
  let g ← theRegs
  let v ← mr g.hl
  mw g.de v
  internal g.de 2
  let bc := g.bc - 1
  if rep && bc != 0 then
    internal g.de 5
    modRegs fun g => { repeatPc g with wz := g.pc - 1 }
  modRegs fun k =>
    (((k.set16 .bc bc).set16 .hl (g.hl + blockInc dir)).set16 .de (g.de + blockInc dir)).setFlags (ldBlockFlags v k.a bc k.flags)

/-- CPI, CPIR, CPD and CPDR (rules R370 to R373). -/
def cpBlock (dir : Dir) (rep : Bool) : M Unit := do
  let g ← theRegs
  let v ← mr g.hl
  internal g.hl 5
  let bc := g.bc - 1
  if rep && bc != 0 && g.a - v != 0 then
    internal g.hl 5
    modRegs fun g => { repeatPc g with wz := g.pc - 1 }
  else
    modRegs fun g => { g with wz := g.wz + blockInc dir }
  modRegs fun k =>
    ((k.set16 .bc bc).set16 .hl (g.hl + blockInc dir)).setFlags (cpBlockFlags k.a v bc k.flags)

/-! ## One meaning per instruction -/

/-- `EX AF,AF'` (rule R360). -/
def execEx_AF_AF (s : State) : Host.Outcome State Fault Refusal := perform exAF s

/-- `EXX` (rule R362). -/
def execExx (s : State) : Host.Outcome State Fault Refusal := perform exx s

/-- `EX (SP),HL` (rule R363). -/
def execEx_atSP_HL (s : State) : Host.Outcome State Fault Refusal := perform (exSp .hl) s

/-- `EX DE,HL` (rule R361). -/
def execEx_DE_HL (s : State) : Host.Outcome State Fault Refusal := perform exDEHL s

/-- `LDI` (rule R366). -/
def execLdi (s : State) : Host.Outcome State Fault Refusal := perform (ldBlock .up false) s

/-- `CPI` (rule R370). -/
def execCpi (s : State) : Host.Outcome State Fault Refusal := perform (cpBlock .up false) s

/-- `LDD` (rule R368). -/
def execLdd (s : State) : Host.Outcome State Fault Refusal := perform (ldBlock .down false) s

/-- `CPD` (rule R372). -/
def execCpd (s : State) : Host.Outcome State Fault Refusal := perform (cpBlock .down false) s

/-- `LDIR` (rule R367). -/
def execLdir (s : State) : Host.Outcome State Fault Refusal := perform (ldBlock .up true) s

/-- `CPIR` (rule R371). -/
def execCpir (s : State) : Host.Outcome State Fault Refusal := perform (cpBlock .up true) s

/-- `LDDR` (rule R369). -/
def execLddr (s : State) : Host.Outcome State Fault Refusal := perform (ldBlock .down true) s

/-- `CPDR` (rule R373). -/
def execCpdr (s : State) : Host.Outcome State Fault Refusal := perform (cpBlock .down true) s

/-- `EX (SP),IX` (rule R364). -/
def execEx_atSP_IX (s : State) : Host.Outcome State Fault Refusal := perform (exSp .ix) s

/-- `EX (SP),IY` (rule R364). -/
def execEx_atSP_IY (s : State) : Host.Outcome State Fault Refusal := perform (exSp .iy) s

end Sys2Proof.Machine
end

