-- ==== Sys2Proof/Machine/InOut.lean ====
section
/-! DEFINITION. Input and output (49_io.md). -/

namespace Sys2Proof.Machine

/-! ## Shared operations -/

/-- Rule R571. -/
def inAN (n : Byte) : M Unit := do
  let p := mkWord (← getReg8 .a) n
  let v ← ior p
  modRegs fun g => { g with a := v, wz := p + 1 }

/-- Rule R572: WZ uses BC as it was before the write. -/
def inRC (r : Reg8) : M Unit := do
  let bc ← getReg16 .bc
  let v ← ior bc
  modRegs fun g => { (g.set8 r v).setFlags (szpFlags v g.flags) with wz := bc + 1 }

/-- Rule R573. -/
def inFC : M Unit := do
  let bc ← getReg16 .bc
  let v ← ior bc
  modRegs fun g => { g.setFlags (szpFlags v g.flags) with wz := bc + 1 }

/-- Rule R574: WZ does not carry into its high byte. -/
def outNA (n : Byte) : M Unit := do
  let a ← getReg8 .a
  iow (mkWord a n) a
  modRegs fun g => { g with wz := mkWord g.a (n + 1) }

/-- `IOW(BC, v); WZ <- BC + 1`. -/
def outC (v : Byte) : M Unit := do
  let bc ← getReg16 .bc
  iow bc v
  modRegs fun g => { g with wz := bc + 1 }

/-- Rule R575. -/
def outCR (r : Reg8) : M Unit := do
  outC (← getReg8 r)

/-- Rule R576. -/
def outC0 : M Unit := outC Config.outC0Value

/-- INI, INIR, IND and INDR (rules R578 to R581). -/
def inBlock (dir : Dir) (rep : Bool) : M Unit := do
  internal (← theRegs).ir 1
  let g ← theRegs
  let v ← ior g.bc
  modRegs fun k => { k with wz := g.bc + blockInc dir }
  mw g.hl v
  let b := g.b - 1
  if rep && b != 0 then
    internal g.hl 5
    modRegs repeatPc
  modRegs fun k =>
    ({ k with b := b }.set16 .hl (g.hl + blockInc dir)).setFlags (ioBlockFlags v b (g.c + lo (blockInc dir)))

/-- OUTI, OTIR, OUTD and OTDR (rules R582 to R585): B is decremented before the port cycle. -/
def outBlock (dir : Dir) (rep : Bool) : M Unit := do
  internal (← theRegs).ir 1
  let g ← theRegs
  let v ← mr g.hl
  let b := g.b - 1
  let bc := mkWord b g.c
  modRegs fun k => { k with b := b }
  iow bc v
  let hl := g.hl + blockInc dir
  modRegs fun k => { (k.set16 .hl hl).setFlags (ioBlockFlags v b (lo hl)) with wz := bc + blockInc dir }
  if rep && b != 0 then
    internal bc 5
    modRegs repeatPc

/-! ## One meaning per instruction -/

/-- `OUT (n),A` (rule R574). -/
def execOut_atn_A (n : Byte) (s : State) : Host.Outcome State Fault Refusal := perform (outNA n) s

/-- `IN A,(n)` (rule R571). -/
def execIn_A_atn (n : Byte) (s : State) : Host.Outcome State Fault Refusal := perform (inAN n) s

/-- `IN B,(C)` (rule R572). -/
def execIn_B_atC (s : State) : Host.Outcome State Fault Refusal := perform (inRC .b) s

/-- `OUT (C),B` (rule R575). -/
def execOut_atC_B (s : State) : Host.Outcome State Fault Refusal := perform (outCR .b) s

/-- `IN C,(C)` (rule R572). -/
def execIn_C_atC (s : State) : Host.Outcome State Fault Refusal := perform (inRC .c) s

/-- `OUT (C),C` (rule R575). -/
def execOut_atC_C (s : State) : Host.Outcome State Fault Refusal := perform (outCR .c) s

/-- `IN D,(C)` (rule R572). -/
def execIn_D_atC (s : State) : Host.Outcome State Fault Refusal := perform (inRC .d) s

/-- `OUT (C),D` (rule R575). -/
def execOut_atC_D (s : State) : Host.Outcome State Fault Refusal := perform (outCR .d) s

/-- `IN E,(C)` (rule R572). -/
def execIn_E_atC (s : State) : Host.Outcome State Fault Refusal := perform (inRC .e) s

/-- `OUT (C),E` (rule R575). -/
def execOut_atC_E (s : State) : Host.Outcome State Fault Refusal := perform (outCR .e) s

/-- `IN H,(C)` (rule R572). -/
def execIn_H_atC (s : State) : Host.Outcome State Fault Refusal := perform (inRC .h) s

/-- `OUT (C),H` (rule R575). -/
def execOut_atC_H (s : State) : Host.Outcome State Fault Refusal := perform (outCR .h) s

/-- `IN L,(C)` (rule R572). -/
def execIn_L_atC (s : State) : Host.Outcome State Fault Refusal := perform (inRC .l) s

/-- `OUT (C),L` (rule R575). -/
def execOut_atC_L (s : State) : Host.Outcome State Fault Refusal := perform (outCR .l) s

/-- `IN F,(C)` (rule R573). -/
def execIn_F_atC (s : State) : Host.Outcome State Fault Refusal := perform inFC s

/-- `OUT (C),0` (rule R576). -/
def execOut_atC_0 (s : State) : Host.Outcome State Fault Refusal := perform outC0 s

/-- `IN A,(C)` (rule R572). -/
def execIn_A_atC (s : State) : Host.Outcome State Fault Refusal := perform (inRC .a) s

/-- `OUT (C),A` (rule R575). -/
def execOut_atC_A (s : State) : Host.Outcome State Fault Refusal := perform (outCR .a) s

/-- `INI` (rule R578). -/
def execIni (s : State) : Host.Outcome State Fault Refusal := perform (inBlock .up false) s

/-- `OUTI` (rule R582). -/
def execOuti (s : State) : Host.Outcome State Fault Refusal := perform (outBlock .up false) s

/-- `IND` (rule R580). -/
def execInd (s : State) : Host.Outcome State Fault Refusal := perform (inBlock .down false) s

/-- `OUTD` (rule R584). -/
def execOutd (s : State) : Host.Outcome State Fault Refusal := perform (outBlock .down false) s

/-- `INIR` (rule R579). -/
def execInir (s : State) : Host.Outcome State Fault Refusal := perform (inBlock .up true) s

/-- `OTIR` (rule R583). -/
def execOtir (s : State) : Host.Outcome State Fault Refusal := perform (outBlock .up true) s

/-- `INDR` (rule R581). -/
def execIndr (s : State) : Host.Outcome State Fault Refusal := perform (inBlock .down true) s

/-- `OTDR` (rule R585). -/
def execOtdr (s : State) : Host.Outcome State Fault Refusal := perform (outBlock .down true) s

end Sys2Proof.Machine
end

