-- ==== Sys2Proof/Machine/Jump.lean ====
section
/-! DEFINITION. Jumps, calls, returns and restarts (48_jump_call.md). -/

namespace Sys2Proof.Machine

/-! ## Shared operations -/

/-- Whether a condition holds of the flags as they stand. -/
def testCond (cond : Cond) : M Bool := return condHolds cond (← theRegs).flags

/-- Rule R540. -/
def jp (nn : Word) : M Unit := jumpTo nn

/-- Rule R541: WZ is written whether or not the jump is taken. -/
def jpCc (cond : Cond) (nn : Word) : M Unit := do
  modRegs fun g => { g with wz := nn }
  if ← testCond cond then modRegs fun g => { g with pc := nn }

/-- `N(PC - 1, 5); PC <- PC + sext_16(e); WZ <- PC`. -/
def relative (e : Byte) : M Unit := do
  internal ((← theRegs).pc - 1) 5
  jumpTo ((← theRegs).pc + sext16 e)

/-- Rule R542. -/
def jr (e : Byte) : M Unit := relative e

/-- Rule R543. -/
def jrCc (cond : Cond) (e : Byte) : M Unit := do
  if ← testCond cond then relative e

/-- Rule R544; the `N(IR, 1)` and the read of `e` come before (`Row.late8`). -/
def djnz (e : Byte) : M Unit := do
  modRegs fun g => { g with b := g.b - 1 }
  if (← theRegs).b != 0 then relative e

/-- Rules R545 and R546. -/
def jpReg (r : Reg16) : M Unit := modRegs fun g => { g with pc := g.get16 r }

/-- `N(PC - 1, 1); Push16(PC); PC <- nn`. -/
def callTo (nn : Word) : M Unit := do
  internal ((← theRegs).pc - 1) 1
  push16 (← theRegs).pc
  modRegs fun g => { g with pc := nn }

/-- Rule R547. -/
def call (nn : Word) : M Unit := do
  modRegs fun g => { g with wz := nn }
  callTo nn

/-- Rule R548: WZ is written whether or not the call is taken. -/
def callCc (cond : Cond) (nn : Word) : M Unit := do
  modRegs fun g => { g with wz := nn }
  if ← testCond cond then callTo nn

/-- Rule R549. -/
def ret : M Unit := do
  jumpTo (← pop16)

/-- Rule R550. -/
def retCc (cond : Cond) : M Unit := do
  internal (← theRegs).ir 1
  if ← testCond cond then jumpTo (← pop16)

/-- Rules R551 and R552. -/
def retInt : M Unit := returnInterrupt

/-- Rule R553. -/
def rst (y : Fin 8) : M Unit := do
  internal (← theRegs).ir 1
  push16 (← theRegs).pc
  jumpTo (BitVec.ofNat 16 (y.val * 8))

/-! ## One meaning per instruction -/

/-- `DJNZ e` (rule R544). -/
def execDjnz_e (e : Byte) (s : State) : Host.Outcome State Fault Refusal := perform (djnz e) s

/-- `JR e` (rule R542). -/
def execJr_e (e : Byte) (s : State) : Host.Outcome State Fault Refusal := perform (jr e) s

/-- `JR NZ,e` (rule R543). -/
def execJr_NZ_e (e : Byte) (s : State) : Host.Outcome State Fault Refusal := perform (jrCc .nz e) s

/-- `JR Z,e` (rule R543). -/
def execJr_Z_e (e : Byte) (s : State) : Host.Outcome State Fault Refusal := perform (jrCc .z e) s

/-- `JR NC,e` (rule R543). -/
def execJr_NC_e (e : Byte) (s : State) : Host.Outcome State Fault Refusal := perform (jrCc .nc e) s

/-- `JR C,e` (rule R543). -/
def execJr_C_e (e : Byte) (s : State) : Host.Outcome State Fault Refusal := perform (jrCc .c e) s

/-- `RET NZ` (rule R550). -/
def execRet_NZ (s : State) : Host.Outcome State Fault Refusal := perform (retCc .nz) s

/-- `JP NZ,nn` (rule R541). -/
def execJp_NZ_nn (nn : Word) (s : State) : Host.Outcome State Fault Refusal := perform (jpCc .nz nn) s

/-- `JP nn` (rule R540). -/
def execJp_nn (nn : Word) (s : State) : Host.Outcome State Fault Refusal := perform (jp nn) s

/-- `CALL NZ,nn` (rule R548). -/
def execCall_NZ_nn (nn : Word) (s : State) : Host.Outcome State Fault Refusal := perform (callCc .nz nn) s

/-- `RST 00H` (rule R553). -/
def execRst_00H (s : State) : Host.Outcome State Fault Refusal := perform (rst 0) s

/-- `RET Z` (rule R550). -/
def execRet_Z (s : State) : Host.Outcome State Fault Refusal := perform (retCc .z) s

/-- `RET` (rule R549). -/
def execRet (s : State) : Host.Outcome State Fault Refusal := perform ret s

/-- `JP Z,nn` (rule R541). -/
def execJp_Z_nn (nn : Word) (s : State) : Host.Outcome State Fault Refusal := perform (jpCc .z nn) s

/-- `CALL Z,nn` (rule R548). -/
def execCall_Z_nn (nn : Word) (s : State) : Host.Outcome State Fault Refusal := perform (callCc .z nn) s

/-- `CALL nn` (rule R547). -/
def execCall_nn (nn : Word) (s : State) : Host.Outcome State Fault Refusal := perform (call nn) s

/-- `RST 08H` (rule R553). -/
def execRst_08H (s : State) : Host.Outcome State Fault Refusal := perform (rst 1) s

/-- `RET NC` (rule R550). -/
def execRet_NC (s : State) : Host.Outcome State Fault Refusal := perform (retCc .nc) s

/-- `JP NC,nn` (rule R541). -/
def execJp_NC_nn (nn : Word) (s : State) : Host.Outcome State Fault Refusal := perform (jpCc .nc nn) s

/-- `CALL NC,nn` (rule R548). -/
def execCall_NC_nn (nn : Word) (s : State) : Host.Outcome State Fault Refusal := perform (callCc .nc nn) s

/-- `RST 10H` (rule R553). -/
def execRst_10H (s : State) : Host.Outcome State Fault Refusal := perform (rst 2) s

/-- `RET C` (rule R550). -/
def execRet_C (s : State) : Host.Outcome State Fault Refusal := perform (retCc .c) s

/-- `JP C,nn` (rule R541). -/
def execJp_C_nn (nn : Word) (s : State) : Host.Outcome State Fault Refusal := perform (jpCc .c nn) s

/-- `CALL C,nn` (rule R548). -/
def execCall_C_nn (nn : Word) (s : State) : Host.Outcome State Fault Refusal := perform (callCc .c nn) s

/-- `RST 18H` (rule R553). -/
def execRst_18H (s : State) : Host.Outcome State Fault Refusal := perform (rst 3) s

/-- `RET PO` (rule R550). -/
def execRet_PO (s : State) : Host.Outcome State Fault Refusal := perform (retCc .po) s

/-- `JP PO,nn` (rule R541). -/
def execJp_PO_nn (nn : Word) (s : State) : Host.Outcome State Fault Refusal := perform (jpCc .po nn) s

/-- `CALL PO,nn` (rule R548). -/
def execCall_PO_nn (nn : Word) (s : State) : Host.Outcome State Fault Refusal := perform (callCc .po nn) s

/-- `RST 20H` (rule R553). -/
def execRst_20H (s : State) : Host.Outcome State Fault Refusal := perform (rst 4) s

/-- `RET PE` (rule R550). -/
def execRet_PE (s : State) : Host.Outcome State Fault Refusal := perform (retCc .pe) s

/-- `JP (HL)` (rule R545). -/
def execJp_atHL (s : State) : Host.Outcome State Fault Refusal := perform (jpReg .hl) s

/-- `JP PE,nn` (rule R541). -/
def execJp_PE_nn (nn : Word) (s : State) : Host.Outcome State Fault Refusal := perform (jpCc .pe nn) s

/-- `CALL PE,nn` (rule R548). -/
def execCall_PE_nn (nn : Word) (s : State) : Host.Outcome State Fault Refusal := perform (callCc .pe nn) s

/-- `RST 28H` (rule R553). -/
def execRst_28H (s : State) : Host.Outcome State Fault Refusal := perform (rst 5) s

/-- `RET P` (rule R550). -/
def execRet_P (s : State) : Host.Outcome State Fault Refusal := perform (retCc .p) s

/-- `JP P,nn` (rule R541). -/
def execJp_P_nn (nn : Word) (s : State) : Host.Outcome State Fault Refusal := perform (jpCc .p nn) s

/-- `CALL P,nn` (rule R548). -/
def execCall_P_nn (nn : Word) (s : State) : Host.Outcome State Fault Refusal := perform (callCc .p nn) s

/-- `RST 30H` (rule R553). -/
def execRst_30H (s : State) : Host.Outcome State Fault Refusal := perform (rst 6) s

/-- `RET M` (rule R550). -/
def execRet_M (s : State) : Host.Outcome State Fault Refusal := perform (retCc .m) s

/-- `JP M,nn` (rule R541). -/
def execJp_M_nn (nn : Word) (s : State) : Host.Outcome State Fault Refusal := perform (jpCc .m nn) s

/-- `CALL M,nn` (rule R548). -/
def execCall_M_nn (nn : Word) (s : State) : Host.Outcome State Fault Refusal := perform (callCc .m nn) s

/-- `RST 38H` (rule R553). -/
def execRst_38H (s : State) : Host.Outcome State Fault Refusal := perform (rst 7) s

/-- `RETN` (rule R552). -/
def execRetn (s : State) : Host.Outcome State Fault Refusal := perform retInt s

/-- `RETI` (rule R551). -/
def execReti (s : State) : Host.Outcome State Fault Refusal := perform retInt s

/-- `JP (IX)` (rule R546). -/
def execJp_atIX (s : State) : Host.Outcome State Fault Refusal := perform (jpReg .ix) s

/-- `JP (IY)` (rule R546). -/
def execJp_atIY (s : State) : Host.Outcome State Fault Refusal := perform (jpReg .iy) s

end Sys2Proof.Machine
end

