-- ==== Sys2Proof/Machine/Load.lean ====
section
/-! DEFINITION. The load group (41_load.md): 8-bit loads, 16-bit loads, PUSH and POP. -/

namespace Sys2Proof.Machine

/-! ## Shared operations -/

/-- `r <- s` (rules R301 to R303, R316, R319, R320). -/
def ld8 (dst : Reg8) (src : Src8) : M Unit := do
  putReg8 dst (← source src)

/-- `MW(ea, r)` (rules R304 and R317). -/
def st8 (m : Mem8) (r : Reg8) : M Unit := do
  let ea ← memAddr m
  mw ea (← getReg8 r)

/-- Rule R305. -/
def stHLImm (n : Byte) : M Unit := do
  mw (← getReg16 .hl) n

/-- Rule R318: the internal T-states follow the read of `n`. -/
def stIdxImm (i : XY) (d n : Byte) : M Unit := do
  mw (← indexAddr i d 2) n

/-- `A <- MR(addr); WZ <- addr + 1` (rules R306 to R308). -/
def ldAFrom (addr : Word) : M Unit := do
  let v ← mr addr
  modRegs fun g => { g with a := v, wz := addr + 1 }

/-- `MW(addr, A); WZ <- {A, lo(addr + 1)}` (rules R309 to R311). -/
def stATo (addr : Word) : M Unit := do
  mw addr (← getReg8 .a)
  modRegs fun g => { g with wz := mkWord g.a (lo (addr + 1)) }

def ldAAt (p : BcDe) : M Unit := do
  ldAFrom (← getReg16 p.reg)

def stAAt (p : BcDe) : M Unit := do
  stATo (← getReg16 p.reg)

def ldANn (nn : Word) : M Unit := ldAFrom nn

def stANn (nn : Word) : M Unit := stATo nn

/-- Rule R312. -/
def ldAI : M Unit := do
  internal (← theRegs).ir 1
  modRegs fun g => g.setAF (g.i, ldAirFlags g.i g.iff2 g.flags)

/-- Rule R313: R after both M1 increments. -/
def ldAR : M Unit := do
  internal (← theRegs).ir 1
  modRegs fun g => g.setAF (g.r, ldAirFlags g.r g.iff2 g.flags)

/-- Rule R314. -/
def ldIA : M Unit := do
  internal (← theRegs).ir 1
  modRegs fun g => { g with i := g.a }

/-- Rule R315. -/
def ldRA : M Unit := do
  internal (← theRegs).ir 1
  modRegs fun g => { g with r := g.a }

/-- Rules R321 and R322. -/
def ld16Imm (r : Reg16) (nn : Word) : M Unit := putReg16 r nn

/-- `rr <- {MR(nn + 1), MR(nn)}; WZ <- nn + 1` (rules R323 to R325). -/
def ld16Nn (r : Reg16) (nn : Word) : M Unit := do
  putReg16 r (← mr16 nn)
  modRegs fun g => { g with wz := nn + 1 }

/-- `MW(nn, lo(rr)); MW(nn + 1, hi(rr)); WZ <- nn + 1` (rules R326 to R328). -/
def st16Nn (nn : Word) (r : Reg16) : M Unit := do
  mw16 nn (← getReg16 r)
  modRegs fun g => { g with wz := nn + 1 }

/-- Rules R329 and R331. -/
def ldSp (r : Reg16) : M Unit := do
  internal (← theRegs).ir 2
  putReg16 .sp (← getReg16 r)

/-- Rules R332 and R333. -/
def push (r : Reg16) : M Unit := do
  internal (← theRegs).ir 1
  push16 (← getReg16 r)

/-- Rules R334 and R335. -/
def pop (r : Reg16) : M Unit := do
  putReg16 r (← pop16)

/-! ## One meaning per instruction -/

/-- `LD BC,nn` (rule R321). -/
def execLd_BC_nn (nn : Word) (s : State) : Host.Outcome State Fault Refusal := perform (ld16Imm .bc nn) s

/-- `LD (BC),A` (rule R309). -/
def execLd_atBC_A (s : State) : Host.Outcome State Fault Refusal := perform (stAAt .bc) s

/-- `LD B,n` (rule R302). -/
def execLd_B_n (n : Byte) (s : State) : Host.Outcome State Fault Refusal := perform (ld8 .b (.imm n)) s

/-- `LD A,(BC)` (rule R306). -/
def execLd_A_atBC (s : State) : Host.Outcome State Fault Refusal := perform (ldAAt .bc) s

/-- `LD C,n` (rule R302). -/
def execLd_C_n (n : Byte) (s : State) : Host.Outcome State Fault Refusal := perform (ld8 .c (.imm n)) s

/-- `LD DE,nn` (rule R321). -/
def execLd_DE_nn (nn : Word) (s : State) : Host.Outcome State Fault Refusal := perform (ld16Imm .de nn) s

/-- `LD (DE),A` (rule R310). -/
def execLd_atDE_A (s : State) : Host.Outcome State Fault Refusal := perform (stAAt .de) s

/-- `LD D,n` (rule R302). -/
def execLd_D_n (n : Byte) (s : State) : Host.Outcome State Fault Refusal := perform (ld8 .d (.imm n)) s

/-- `LD A,(DE)` (rule R307). -/
def execLd_A_atDE (s : State) : Host.Outcome State Fault Refusal := perform (ldAAt .de) s

/-- `LD E,n` (rule R302). -/
def execLd_E_n (n : Byte) (s : State) : Host.Outcome State Fault Refusal := perform (ld8 .e (.imm n)) s

/-- `LD HL,nn` (rule R321). -/
def execLd_HL_nn (nn : Word) (s : State) : Host.Outcome State Fault Refusal := perform (ld16Imm .hl nn) s

/-- `LD (nn),HL` (rule R326). -/
def execLd_atnn_HL (nn : Word) (s : State) : Host.Outcome State Fault Refusal := perform (st16Nn nn .hl) s

/-- `LD H,n` (rule R302). -/
def execLd_H_n (n : Byte) (s : State) : Host.Outcome State Fault Refusal := perform (ld8 .h (.imm n)) s

/-- `LD HL,(nn)` (rule R323). -/
def execLd_HL_atnn (nn : Word) (s : State) : Host.Outcome State Fault Refusal := perform (ld16Nn .hl nn) s

/-- `LD L,n` (rule R302). -/
def execLd_L_n (n : Byte) (s : State) : Host.Outcome State Fault Refusal := perform (ld8 .l (.imm n)) s

/-- `LD SP,nn` (rule R321). -/
def execLd_SP_nn (nn : Word) (s : State) : Host.Outcome State Fault Refusal := perform (ld16Imm .sp nn) s

/-- `LD (nn),A` (rule R311). -/
def execLd_atnn_A (nn : Word) (s : State) : Host.Outcome State Fault Refusal := perform (stANn nn) s

/-- `LD (HL),n` (rule R305). -/
def execLd_atHL_n (n : Byte) (s : State) : Host.Outcome State Fault Refusal := perform (stHLImm n) s

/-- `LD A,(nn)` (rule R308). -/
def execLd_A_atnn (nn : Word) (s : State) : Host.Outcome State Fault Refusal := perform (ldANn nn) s

/-- `LD A,n` (rule R302). -/
def execLd_A_n (n : Byte) (s : State) : Host.Outcome State Fault Refusal := perform (ld8 .a (.imm n)) s

/-- `LD B,B` (rule R301). -/
def execLd_B_B (s : State) : Host.Outcome State Fault Refusal := perform (ld8 .b (.reg .b)) s

/-- `LD B,C` (rule R301). -/
def execLd_B_C (s : State) : Host.Outcome State Fault Refusal := perform (ld8 .b (.reg .c)) s

/-- `LD B,D` (rule R301). -/
def execLd_B_D (s : State) : Host.Outcome State Fault Refusal := perform (ld8 .b (.reg .d)) s

/-- `LD B,E` (rule R301). -/
def execLd_B_E (s : State) : Host.Outcome State Fault Refusal := perform (ld8 .b (.reg .e)) s

/-- `LD B,H` (rule R301). -/
def execLd_B_H (s : State) : Host.Outcome State Fault Refusal := perform (ld8 .b (.reg .h)) s

/-- `LD B,L` (rule R301). -/
def execLd_B_L (s : State) : Host.Outcome State Fault Refusal := perform (ld8 .b (.reg .l)) s

/-- `LD B,(HL)` (rule R303). -/
def execLd_B_atHL (s : State) : Host.Outcome State Fault Refusal := perform (ld8 .b .atHL) s

/-- `LD B,A` (rule R301). -/
def execLd_B_A (s : State) : Host.Outcome State Fault Refusal := perform (ld8 .b (.reg .a)) s

/-- `LD C,B` (rule R301). -/
def execLd_C_B (s : State) : Host.Outcome State Fault Refusal := perform (ld8 .c (.reg .b)) s

/-- `LD C,C` (rule R301). -/
def execLd_C_C (s : State) : Host.Outcome State Fault Refusal := perform (ld8 .c (.reg .c)) s

/-- `LD C,D` (rule R301). -/
def execLd_C_D (s : State) : Host.Outcome State Fault Refusal := perform (ld8 .c (.reg .d)) s

/-- `LD C,E` (rule R301). -/
def execLd_C_E (s : State) : Host.Outcome State Fault Refusal := perform (ld8 .c (.reg .e)) s

/-- `LD C,H` (rule R301). -/
def execLd_C_H (s : State) : Host.Outcome State Fault Refusal := perform (ld8 .c (.reg .h)) s

/-- `LD C,L` (rule R301). -/
def execLd_C_L (s : State) : Host.Outcome State Fault Refusal := perform (ld8 .c (.reg .l)) s

/-- `LD C,(HL)` (rule R303). -/
def execLd_C_atHL (s : State) : Host.Outcome State Fault Refusal := perform (ld8 .c .atHL) s

/-- `LD C,A` (rule R301). -/
def execLd_C_A (s : State) : Host.Outcome State Fault Refusal := perform (ld8 .c (.reg .a)) s

/-- `LD D,B` (rule R301). -/
def execLd_D_B (s : State) : Host.Outcome State Fault Refusal := perform (ld8 .d (.reg .b)) s

/-- `LD D,C` (rule R301). -/
def execLd_D_C (s : State) : Host.Outcome State Fault Refusal := perform (ld8 .d (.reg .c)) s

/-- `LD D,D` (rule R301). -/
def execLd_D_D (s : State) : Host.Outcome State Fault Refusal := perform (ld8 .d (.reg .d)) s

/-- `LD D,E` (rule R301). -/
def execLd_D_E (s : State) : Host.Outcome State Fault Refusal := perform (ld8 .d (.reg .e)) s

/-- `LD D,H` (rule R301). -/
def execLd_D_H (s : State) : Host.Outcome State Fault Refusal := perform (ld8 .d (.reg .h)) s

/-- `LD D,L` (rule R301). -/
def execLd_D_L (s : State) : Host.Outcome State Fault Refusal := perform (ld8 .d (.reg .l)) s

/-- `LD D,(HL)` (rule R303). -/
def execLd_D_atHL (s : State) : Host.Outcome State Fault Refusal := perform (ld8 .d .atHL) s

/-- `LD D,A` (rule R301). -/
def execLd_D_A (s : State) : Host.Outcome State Fault Refusal := perform (ld8 .d (.reg .a)) s

/-- `LD E,B` (rule R301). -/
def execLd_E_B (s : State) : Host.Outcome State Fault Refusal := perform (ld8 .e (.reg .b)) s

/-- `LD E,C` (rule R301). -/
def execLd_E_C (s : State) : Host.Outcome State Fault Refusal := perform (ld8 .e (.reg .c)) s

/-- `LD E,D` (rule R301). -/
def execLd_E_D (s : State) : Host.Outcome State Fault Refusal := perform (ld8 .e (.reg .d)) s

/-- `LD E,E` (rule R301). -/
def execLd_E_E (s : State) : Host.Outcome State Fault Refusal := perform (ld8 .e (.reg .e)) s

/-- `LD E,H` (rule R301). -/
def execLd_E_H (s : State) : Host.Outcome State Fault Refusal := perform (ld8 .e (.reg .h)) s

/-- `LD E,L` (rule R301). -/
def execLd_E_L (s : State) : Host.Outcome State Fault Refusal := perform (ld8 .e (.reg .l)) s

/-- `LD E,(HL)` (rule R303). -/
def execLd_E_atHL (s : State) : Host.Outcome State Fault Refusal := perform (ld8 .e .atHL) s

/-- `LD E,A` (rule R301). -/
def execLd_E_A (s : State) : Host.Outcome State Fault Refusal := perform (ld8 .e (.reg .a)) s

/-- `LD H,B` (rule R301). -/
def execLd_H_B (s : State) : Host.Outcome State Fault Refusal := perform (ld8 .h (.reg .b)) s

/-- `LD H,C` (rule R301). -/
def execLd_H_C (s : State) : Host.Outcome State Fault Refusal := perform (ld8 .h (.reg .c)) s

/-- `LD H,D` (rule R301). -/
def execLd_H_D (s : State) : Host.Outcome State Fault Refusal := perform (ld8 .h (.reg .d)) s

/-- `LD H,E` (rule R301). -/
def execLd_H_E (s : State) : Host.Outcome State Fault Refusal := perform (ld8 .h (.reg .e)) s

/-- `LD H,H` (rule R301). -/
def execLd_H_H (s : State) : Host.Outcome State Fault Refusal := perform (ld8 .h (.reg .h)) s

/-- `LD H,L` (rule R301). -/
def execLd_H_L (s : State) : Host.Outcome State Fault Refusal := perform (ld8 .h (.reg .l)) s

/-- `LD H,(HL)` (rule R303). -/
def execLd_H_atHL (s : State) : Host.Outcome State Fault Refusal := perform (ld8 .h .atHL) s

/-- `LD H,A` (rule R301). -/
def execLd_H_A (s : State) : Host.Outcome State Fault Refusal := perform (ld8 .h (.reg .a)) s

/-- `LD L,B` (rule R301). -/
def execLd_L_B (s : State) : Host.Outcome State Fault Refusal := perform (ld8 .l (.reg .b)) s

/-- `LD L,C` (rule R301). -/
def execLd_L_C (s : State) : Host.Outcome State Fault Refusal := perform (ld8 .l (.reg .c)) s

/-- `LD L,D` (rule R301). -/
def execLd_L_D (s : State) : Host.Outcome State Fault Refusal := perform (ld8 .l (.reg .d)) s

/-- `LD L,E` (rule R301). -/
def execLd_L_E (s : State) : Host.Outcome State Fault Refusal := perform (ld8 .l (.reg .e)) s

/-- `LD L,H` (rule R301). -/
def execLd_L_H (s : State) : Host.Outcome State Fault Refusal := perform (ld8 .l (.reg .h)) s

/-- `LD L,L` (rule R301). -/
def execLd_L_L (s : State) : Host.Outcome State Fault Refusal := perform (ld8 .l (.reg .l)) s

/-- `LD L,(HL)` (rule R303). -/
def execLd_L_atHL (s : State) : Host.Outcome State Fault Refusal := perform (ld8 .l .atHL) s

/-- `LD L,A` (rule R301). -/
def execLd_L_A (s : State) : Host.Outcome State Fault Refusal := perform (ld8 .l (.reg .a)) s

/-- `LD (HL),B` (rule R304). -/
def execLd_atHL_B (s : State) : Host.Outcome State Fault Refusal := perform (st8 .atHL .b) s

/-- `LD (HL),C` (rule R304). -/
def execLd_atHL_C (s : State) : Host.Outcome State Fault Refusal := perform (st8 .atHL .c) s

/-- `LD (HL),D` (rule R304). -/
def execLd_atHL_D (s : State) : Host.Outcome State Fault Refusal := perform (st8 .atHL .d) s

/-- `LD (HL),E` (rule R304). -/
def execLd_atHL_E (s : State) : Host.Outcome State Fault Refusal := perform (st8 .atHL .e) s

/-- `LD (HL),H` (rule R304). -/
def execLd_atHL_H (s : State) : Host.Outcome State Fault Refusal := perform (st8 .atHL .h) s

/-- `LD (HL),L` (rule R304). -/
def execLd_atHL_L (s : State) : Host.Outcome State Fault Refusal := perform (st8 .atHL .l) s

/-- `LD (HL),A` (rule R304). -/
def execLd_atHL_A (s : State) : Host.Outcome State Fault Refusal := perform (st8 .atHL .a) s

/-- `LD A,B` (rule R301). -/
def execLd_A_B (s : State) : Host.Outcome State Fault Refusal := perform (ld8 .a (.reg .b)) s

/-- `LD A,C` (rule R301). -/
def execLd_A_C (s : State) : Host.Outcome State Fault Refusal := perform (ld8 .a (.reg .c)) s

/-- `LD A,D` (rule R301). -/
def execLd_A_D (s : State) : Host.Outcome State Fault Refusal := perform (ld8 .a (.reg .d)) s

/-- `LD A,E` (rule R301). -/
def execLd_A_E (s : State) : Host.Outcome State Fault Refusal := perform (ld8 .a (.reg .e)) s

/-- `LD A,H` (rule R301). -/
def execLd_A_H (s : State) : Host.Outcome State Fault Refusal := perform (ld8 .a (.reg .h)) s

/-- `LD A,L` (rule R301). -/
def execLd_A_L (s : State) : Host.Outcome State Fault Refusal := perform (ld8 .a (.reg .l)) s

/-- `LD A,(HL)` (rule R303). -/
def execLd_A_atHL (s : State) : Host.Outcome State Fault Refusal := perform (ld8 .a .atHL) s

/-- `LD A,A` (rule R301). -/
def execLd_A_A (s : State) : Host.Outcome State Fault Refusal := perform (ld8 .a (.reg .a)) s

/-- `POP BC` (rule R334). -/
def execPop_BC (s : State) : Host.Outcome State Fault Refusal := perform (pop .bc) s

/-- `PUSH BC` (rule R332). -/
def execPush_BC (s : State) : Host.Outcome State Fault Refusal := perform (push .bc) s

/-- `POP DE` (rule R334). -/
def execPop_DE (s : State) : Host.Outcome State Fault Refusal := perform (pop .de) s

/-- `PUSH DE` (rule R332). -/
def execPush_DE (s : State) : Host.Outcome State Fault Refusal := perform (push .de) s

/-- `POP HL` (rule R334). -/
def execPop_HL (s : State) : Host.Outcome State Fault Refusal := perform (pop .hl) s

/-- `PUSH HL` (rule R332). -/
def execPush_HL (s : State) : Host.Outcome State Fault Refusal := perform (push .hl) s

/-- `POP AF` (rule R334). -/
def execPop_AF (s : State) : Host.Outcome State Fault Refusal := perform (pop .af) s

/-- `PUSH AF` (rule R332). -/
def execPush_AF (s : State) : Host.Outcome State Fault Refusal := perform (push .af) s

/-- `LD SP,HL` (rule R329). -/
def execLd_SP_HL (s : State) : Host.Outcome State Fault Refusal := perform (ldSp .hl) s

/-- `LD (nn),BC` (rule R328). -/
def execLd_atnn_BC (nn : Word) (s : State) : Host.Outcome State Fault Refusal := perform (st16Nn nn .bc) s

/-- `LD I,A` (rule R314). -/
def execLd_I_A (s : State) : Host.Outcome State Fault Refusal := perform ldIA s

/-- `LD BC,(nn)` (rule R325). -/
def execLd_BC_atnn (nn : Word) (s : State) : Host.Outcome State Fault Refusal := perform (ld16Nn .bc nn) s

/-- `LD R,A` (rule R315). -/
def execLd_R_A (s : State) : Host.Outcome State Fault Refusal := perform ldRA s

/-- `LD (nn),DE` (rule R328). -/
def execLd_atnn_DE (nn : Word) (s : State) : Host.Outcome State Fault Refusal := perform (st16Nn nn .de) s

/-- `LD A,I` (rule R312). -/
def execLd_A_I (s : State) : Host.Outcome State Fault Refusal := perform ldAI s

/-- `LD DE,(nn)` (rule R325). -/
def execLd_DE_atnn (nn : Word) (s : State) : Host.Outcome State Fault Refusal := perform (ld16Nn .de nn) s

/-- `LD A,R` (rule R313). -/
def execLd_A_R (s : State) : Host.Outcome State Fault Refusal := perform ldAR s

/-- `LD (nn),HL` (rule R328). -/
def execLd_atnn_HL_ed (nn : Word) (s : State) : Host.Outcome State Fault Refusal := perform (st16Nn nn .hl) s

/-- `LD HL,(nn)` (rule R325). -/
def execLd_HL_atnn_ed (nn : Word) (s : State) : Host.Outcome State Fault Refusal := perform (ld16Nn .hl nn) s

/-- `LD (nn),SP` (rule R328). -/
def execLd_atnn_SP (nn : Word) (s : State) : Host.Outcome State Fault Refusal := perform (st16Nn nn .sp) s

/-- `LD SP,(nn)` (rule R325). -/
def execLd_SP_atnn (nn : Word) (s : State) : Host.Outcome State Fault Refusal := perform (ld16Nn .sp nn) s

/-- `LD IX,nn` (rule R322). -/
def execLd_IX_nn (nn : Word) (s : State) : Host.Outcome State Fault Refusal := perform (ld16Imm .ix nn) s

/-- `LD (nn),IX` (rule R327). -/
def execLd_atnn_IX (nn : Word) (s : State) : Host.Outcome State Fault Refusal := perform (st16Nn nn .ix) s

/-- `LD IXH,n` (rule R320). -/
def execLd_IXH_n (n : Byte) (s : State) : Host.Outcome State Fault Refusal := perform (ld8 .ixh (.imm n)) s

/-- `LD IX,(nn)` (rule R324). -/
def execLd_IX_atnn (nn : Word) (s : State) : Host.Outcome State Fault Refusal := perform (ld16Nn .ix nn) s

/-- `LD IXL,n` (rule R320). -/
def execLd_IXL_n (n : Byte) (s : State) : Host.Outcome State Fault Refusal := perform (ld8 .ixl (.imm n)) s

/-- `LD (IX+d),n` (rule R318). -/
def execLd_atIXd_n (d : Byte) (n : Byte) (s : State) : Host.Outcome State Fault Refusal := perform (stIdxImm .ix d n) s

/-- `LD B,IXH` (rule R319). -/
def execLd_B_IXH (s : State) : Host.Outcome State Fault Refusal := perform (ld8 .b (.reg .ixh)) s

/-- `LD B,IXL` (rule R319). -/
def execLd_B_IXL (s : State) : Host.Outcome State Fault Refusal := perform (ld8 .b (.reg .ixl)) s

/-- `LD B,(IX+d)` (rule R316). -/
def execLd_B_atIXd (d : Byte) (s : State) : Host.Outcome State Fault Refusal := perform (ld8 .b (.atIdx .ix d)) s

/-- `LD C,IXH` (rule R319). -/
def execLd_C_IXH (s : State) : Host.Outcome State Fault Refusal := perform (ld8 .c (.reg .ixh)) s

/-- `LD C,IXL` (rule R319). -/
def execLd_C_IXL (s : State) : Host.Outcome State Fault Refusal := perform (ld8 .c (.reg .ixl)) s

/-- `LD C,(IX+d)` (rule R316). -/
def execLd_C_atIXd (d : Byte) (s : State) : Host.Outcome State Fault Refusal := perform (ld8 .c (.atIdx .ix d)) s

/-- `LD D,IXH` (rule R319). -/
def execLd_D_IXH (s : State) : Host.Outcome State Fault Refusal := perform (ld8 .d (.reg .ixh)) s

/-- `LD D,IXL` (rule R319). -/
def execLd_D_IXL (s : State) : Host.Outcome State Fault Refusal := perform (ld8 .d (.reg .ixl)) s

/-- `LD D,(IX+d)` (rule R316). -/
def execLd_D_atIXd (d : Byte) (s : State) : Host.Outcome State Fault Refusal := perform (ld8 .d (.atIdx .ix d)) s

/-- `LD E,IXH` (rule R319). -/
def execLd_E_IXH (s : State) : Host.Outcome State Fault Refusal := perform (ld8 .e (.reg .ixh)) s

/-- `LD E,IXL` (rule R319). -/
def execLd_E_IXL (s : State) : Host.Outcome State Fault Refusal := perform (ld8 .e (.reg .ixl)) s

/-- `LD E,(IX+d)` (rule R316). -/
def execLd_E_atIXd (d : Byte) (s : State) : Host.Outcome State Fault Refusal := perform (ld8 .e (.atIdx .ix d)) s

/-- `LD IXH,B` (rule R319). -/
def execLd_IXH_B (s : State) : Host.Outcome State Fault Refusal := perform (ld8 .ixh (.reg .b)) s

/-- `LD IXH,C` (rule R319). -/
def execLd_IXH_C (s : State) : Host.Outcome State Fault Refusal := perform (ld8 .ixh (.reg .c)) s

/-- `LD IXH,D` (rule R319). -/
def execLd_IXH_D (s : State) : Host.Outcome State Fault Refusal := perform (ld8 .ixh (.reg .d)) s

/-- `LD IXH,E` (rule R319). -/
def execLd_IXH_E (s : State) : Host.Outcome State Fault Refusal := perform (ld8 .ixh (.reg .e)) s

/-- `LD IXH,IXH` (rule R319). -/
def execLd_IXH_IXH (s : State) : Host.Outcome State Fault Refusal := perform (ld8 .ixh (.reg .ixh)) s

/-- `LD IXH,IXL` (rule R319). -/
def execLd_IXH_IXL (s : State) : Host.Outcome State Fault Refusal := perform (ld8 .ixh (.reg .ixl)) s

/-- `LD H,(IX+d)` (rule R316). -/
def execLd_H_atIXd (d : Byte) (s : State) : Host.Outcome State Fault Refusal := perform (ld8 .h (.atIdx .ix d)) s

/-- `LD IXH,A` (rule R319). -/
def execLd_IXH_A (s : State) : Host.Outcome State Fault Refusal := perform (ld8 .ixh (.reg .a)) s

/-- `LD IXL,B` (rule R319). -/
def execLd_IXL_B (s : State) : Host.Outcome State Fault Refusal := perform (ld8 .ixl (.reg .b)) s

/-- `LD IXL,C` (rule R319). -/
def execLd_IXL_C (s : State) : Host.Outcome State Fault Refusal := perform (ld8 .ixl (.reg .c)) s

/-- `LD IXL,D` (rule R319). -/
def execLd_IXL_D (s : State) : Host.Outcome State Fault Refusal := perform (ld8 .ixl (.reg .d)) s

/-- `LD IXL,E` (rule R319). -/
def execLd_IXL_E (s : State) : Host.Outcome State Fault Refusal := perform (ld8 .ixl (.reg .e)) s

/-- `LD IXL,IXH` (rule R319). -/
def execLd_IXL_IXH (s : State) : Host.Outcome State Fault Refusal := perform (ld8 .ixl (.reg .ixh)) s

/-- `LD IXL,IXL` (rule R319). -/
def execLd_IXL_IXL (s : State) : Host.Outcome State Fault Refusal := perform (ld8 .ixl (.reg .ixl)) s

/-- `LD L,(IX+d)` (rule R316). -/
def execLd_L_atIXd (d : Byte) (s : State) : Host.Outcome State Fault Refusal := perform (ld8 .l (.atIdx .ix d)) s

/-- `LD IXL,A` (rule R319). -/
def execLd_IXL_A (s : State) : Host.Outcome State Fault Refusal := perform (ld8 .ixl (.reg .a)) s

/-- `LD (IX+d),B` (rule R317). -/
def execLd_atIXd_B (d : Byte) (s : State) : Host.Outcome State Fault Refusal := perform (st8 (.atIdx .ix d) .b) s

/-- `LD (IX+d),C` (rule R317). -/
def execLd_atIXd_C (d : Byte) (s : State) : Host.Outcome State Fault Refusal := perform (st8 (.atIdx .ix d) .c) s

/-- `LD (IX+d),D` (rule R317). -/
def execLd_atIXd_D (d : Byte) (s : State) : Host.Outcome State Fault Refusal := perform (st8 (.atIdx .ix d) .d) s

/-- `LD (IX+d),E` (rule R317). -/
def execLd_atIXd_E (d : Byte) (s : State) : Host.Outcome State Fault Refusal := perform (st8 (.atIdx .ix d) .e) s

/-- `LD (IX+d),H` (rule R317). -/
def execLd_atIXd_H (d : Byte) (s : State) : Host.Outcome State Fault Refusal := perform (st8 (.atIdx .ix d) .h) s

/-- `LD (IX+d),L` (rule R317). -/
def execLd_atIXd_L (d : Byte) (s : State) : Host.Outcome State Fault Refusal := perform (st8 (.atIdx .ix d) .l) s

/-- `LD (IX+d),A` (rule R317). -/
def execLd_atIXd_A (d : Byte) (s : State) : Host.Outcome State Fault Refusal := perform (st8 (.atIdx .ix d) .a) s

/-- `LD A,IXH` (rule R319). -/
def execLd_A_IXH (s : State) : Host.Outcome State Fault Refusal := perform (ld8 .a (.reg .ixh)) s

/-- `LD A,IXL` (rule R319). -/
def execLd_A_IXL (s : State) : Host.Outcome State Fault Refusal := perform (ld8 .a (.reg .ixl)) s

/-- `LD A,(IX+d)` (rule R316). -/
def execLd_A_atIXd (d : Byte) (s : State) : Host.Outcome State Fault Refusal := perform (ld8 .a (.atIdx .ix d)) s

/-- `POP IX` (rule R335). -/
def execPop_IX (s : State) : Host.Outcome State Fault Refusal := perform (pop .ix) s

/-- `PUSH IX` (rule R333). -/
def execPush_IX (s : State) : Host.Outcome State Fault Refusal := perform (push .ix) s

/-- `LD SP,IX` (rule R331). -/
def execLd_SP_IX (s : State) : Host.Outcome State Fault Refusal := perform (ldSp .ix) s

/-- `LD IY,nn` (rule R322). -/
def execLd_IY_nn (nn : Word) (s : State) : Host.Outcome State Fault Refusal := perform (ld16Imm .iy nn) s

/-- `LD (nn),IY` (rule R327). -/
def execLd_atnn_IY (nn : Word) (s : State) : Host.Outcome State Fault Refusal := perform (st16Nn nn .iy) s

/-- `LD IYH,n` (rule R320). -/
def execLd_IYH_n (n : Byte) (s : State) : Host.Outcome State Fault Refusal := perform (ld8 .iyh (.imm n)) s

/-- `LD IY,(nn)` (rule R324). -/
def execLd_IY_atnn (nn : Word) (s : State) : Host.Outcome State Fault Refusal := perform (ld16Nn .iy nn) s

/-- `LD IYL,n` (rule R320). -/
def execLd_IYL_n (n : Byte) (s : State) : Host.Outcome State Fault Refusal := perform (ld8 .iyl (.imm n)) s

/-- `LD (IY+d),n` (rule R318). -/
def execLd_atIYd_n (d : Byte) (n : Byte) (s : State) : Host.Outcome State Fault Refusal := perform (stIdxImm .iy d n) s

/-- `LD B,IYH` (rule R319). -/
def execLd_B_IYH (s : State) : Host.Outcome State Fault Refusal := perform (ld8 .b (.reg .iyh)) s

/-- `LD B,IYL` (rule R319). -/
def execLd_B_IYL (s : State) : Host.Outcome State Fault Refusal := perform (ld8 .b (.reg .iyl)) s

/-- `LD B,(IY+d)` (rule R316). -/
def execLd_B_atIYd (d : Byte) (s : State) : Host.Outcome State Fault Refusal := perform (ld8 .b (.atIdx .iy d)) s

/-- `LD C,IYH` (rule R319). -/
def execLd_C_IYH (s : State) : Host.Outcome State Fault Refusal := perform (ld8 .c (.reg .iyh)) s

/-- `LD C,IYL` (rule R319). -/
def execLd_C_IYL (s : State) : Host.Outcome State Fault Refusal := perform (ld8 .c (.reg .iyl)) s

/-- `LD C,(IY+d)` (rule R316). -/
def execLd_C_atIYd (d : Byte) (s : State) : Host.Outcome State Fault Refusal := perform (ld8 .c (.atIdx .iy d)) s

/-- `LD D,IYH` (rule R319). -/
def execLd_D_IYH (s : State) : Host.Outcome State Fault Refusal := perform (ld8 .d (.reg .iyh)) s

/-- `LD D,IYL` (rule R319). -/
def execLd_D_IYL (s : State) : Host.Outcome State Fault Refusal := perform (ld8 .d (.reg .iyl)) s

/-- `LD D,(IY+d)` (rule R316). -/
def execLd_D_atIYd (d : Byte) (s : State) : Host.Outcome State Fault Refusal := perform (ld8 .d (.atIdx .iy d)) s

/-- `LD E,IYH` (rule R319). -/
def execLd_E_IYH (s : State) : Host.Outcome State Fault Refusal := perform (ld8 .e (.reg .iyh)) s

/-- `LD E,IYL` (rule R319). -/
def execLd_E_IYL (s : State) : Host.Outcome State Fault Refusal := perform (ld8 .e (.reg .iyl)) s

/-- `LD E,(IY+d)` (rule R316). -/
def execLd_E_atIYd (d : Byte) (s : State) : Host.Outcome State Fault Refusal := perform (ld8 .e (.atIdx .iy d)) s

/-- `LD IYH,B` (rule R319). -/
def execLd_IYH_B (s : State) : Host.Outcome State Fault Refusal := perform (ld8 .iyh (.reg .b)) s

/-- `LD IYH,C` (rule R319). -/
def execLd_IYH_C (s : State) : Host.Outcome State Fault Refusal := perform (ld8 .iyh (.reg .c)) s

/-- `LD IYH,D` (rule R319). -/
def execLd_IYH_D (s : State) : Host.Outcome State Fault Refusal := perform (ld8 .iyh (.reg .d)) s

/-- `LD IYH,E` (rule R319). -/
def execLd_IYH_E (s : State) : Host.Outcome State Fault Refusal := perform (ld8 .iyh (.reg .e)) s

/-- `LD IYH,IYH` (rule R319). -/
def execLd_IYH_IYH (s : State) : Host.Outcome State Fault Refusal := perform (ld8 .iyh (.reg .iyh)) s

/-- `LD IYH,IYL` (rule R319). -/
def execLd_IYH_IYL (s : State) : Host.Outcome State Fault Refusal := perform (ld8 .iyh (.reg .iyl)) s

/-- `LD H,(IY+d)` (rule R316). -/
def execLd_H_atIYd (d : Byte) (s : State) : Host.Outcome State Fault Refusal := perform (ld8 .h (.atIdx .iy d)) s

/-- `LD IYH,A` (rule R319). -/
def execLd_IYH_A (s : State) : Host.Outcome State Fault Refusal := perform (ld8 .iyh (.reg .a)) s

/-- `LD IYL,B` (rule R319). -/
def execLd_IYL_B (s : State) : Host.Outcome State Fault Refusal := perform (ld8 .iyl (.reg .b)) s

/-- `LD IYL,C` (rule R319). -/
def execLd_IYL_C (s : State) : Host.Outcome State Fault Refusal := perform (ld8 .iyl (.reg .c)) s

/-- `LD IYL,D` (rule R319). -/
def execLd_IYL_D (s : State) : Host.Outcome State Fault Refusal := perform (ld8 .iyl (.reg .d)) s

/-- `LD IYL,E` (rule R319). -/
def execLd_IYL_E (s : State) : Host.Outcome State Fault Refusal := perform (ld8 .iyl (.reg .e)) s

/-- `LD IYL,IYH` (rule R319). -/
def execLd_IYL_IYH (s : State) : Host.Outcome State Fault Refusal := perform (ld8 .iyl (.reg .iyh)) s

/-- `LD IYL,IYL` (rule R319). -/
def execLd_IYL_IYL (s : State) : Host.Outcome State Fault Refusal := perform (ld8 .iyl (.reg .iyl)) s

/-- `LD L,(IY+d)` (rule R316). -/
def execLd_L_atIYd (d : Byte) (s : State) : Host.Outcome State Fault Refusal := perform (ld8 .l (.atIdx .iy d)) s

/-- `LD IYL,A` (rule R319). -/
def execLd_IYL_A (s : State) : Host.Outcome State Fault Refusal := perform (ld8 .iyl (.reg .a)) s

/-- `LD (IY+d),B` (rule R317). -/
def execLd_atIYd_B (d : Byte) (s : State) : Host.Outcome State Fault Refusal := perform (st8 (.atIdx .iy d) .b) s

/-- `LD (IY+d),C` (rule R317). -/
def execLd_atIYd_C (d : Byte) (s : State) : Host.Outcome State Fault Refusal := perform (st8 (.atIdx .iy d) .c) s

/-- `LD (IY+d),D` (rule R317). -/
def execLd_atIYd_D (d : Byte) (s : State) : Host.Outcome State Fault Refusal := perform (st8 (.atIdx .iy d) .d) s

/-- `LD (IY+d),E` (rule R317). -/
def execLd_atIYd_E (d : Byte) (s : State) : Host.Outcome State Fault Refusal := perform (st8 (.atIdx .iy d) .e) s

/-- `LD (IY+d),H` (rule R317). -/
def execLd_atIYd_H (d : Byte) (s : State) : Host.Outcome State Fault Refusal := perform (st8 (.atIdx .iy d) .h) s

/-- `LD (IY+d),L` (rule R317). -/
def execLd_atIYd_L (d : Byte) (s : State) : Host.Outcome State Fault Refusal := perform (st8 (.atIdx .iy d) .l) s

/-- `LD (IY+d),A` (rule R317). -/
def execLd_atIYd_A (d : Byte) (s : State) : Host.Outcome State Fault Refusal := perform (st8 (.atIdx .iy d) .a) s

/-- `LD A,IYH` (rule R319). -/
def execLd_A_IYH (s : State) : Host.Outcome State Fault Refusal := perform (ld8 .a (.reg .iyh)) s

/-- `LD A,IYL` (rule R319). -/
def execLd_A_IYL (s : State) : Host.Outcome State Fault Refusal := perform (ld8 .a (.reg .iyl)) s

/-- `LD A,(IY+d)` (rule R316). -/
def execLd_A_atIYd (d : Byte) (s : State) : Host.Outcome State Fault Refusal := perform (ld8 .a (.atIdx .iy d)) s

/-- `POP IY` (rule R335). -/
def execPop_IY (s : State) : Host.Outcome State Fault Refusal := perform (pop .iy) s

/-- `PUSH IY` (rule R333). -/
def execPush_IY (s : State) : Host.Outcome State Fault Refusal := perform (push .iy) s

/-- `LD SP,IY` (rule R331). -/
def execLd_SP_IY (s : State) : Host.Outcome State Fault Refusal := perform (ldSp .iy) s

end Sys2Proof.Machine
end

