-- ==== Sys2Proof/Machine/Prefix.lean ====
section
/-! DEFINITION. Discarded index prefixes, the `P` rows of the opcode table (30_encoding.md rules R173 and R179). -/

namespace Sys2Proof.Machine

/-! ## Shared operation -/

/-- The prefix has no effect; `Dispatch` goes on with the byte after it, which is already fetched (35_engine.md rule R220). -/
def ignoredPrefix (op : Byte) : M Unit := modify fun s => { s with latch := some op }

/-! ## One meaning per instruction -/

/-- `(DD ignored) NOP` (rule R173). -/
def execDdIgnored_NOP (s : State) : Host.Outcome State Fault Refusal := perform (ignoredPrefix 0x00) s

/-- `(DD ignored) LD BC,nn` (rule R173). -/
def execDdIgnored_LD_BC_nn (s : State) : Host.Outcome State Fault Refusal := perform (ignoredPrefix 0x01) s

/-- `(DD ignored) LD (BC),A` (rule R173). -/
def execDdIgnored_LD_atBC_A (s : State) : Host.Outcome State Fault Refusal := perform (ignoredPrefix 0x02) s

/-- `(DD ignored) INC BC` (rule R173). -/
def execDdIgnored_INC_BC (s : State) : Host.Outcome State Fault Refusal := perform (ignoredPrefix 0x03) s

/-- `(DD ignored) INC B` (rule R173). -/
def execDdIgnored_INC_B (s : State) : Host.Outcome State Fault Refusal := perform (ignoredPrefix 0x04) s

/-- `(DD ignored) DEC B` (rule R173). -/
def execDdIgnored_DEC_B (s : State) : Host.Outcome State Fault Refusal := perform (ignoredPrefix 0x05) s

/-- `(DD ignored) LD B,n` (rule R173). -/
def execDdIgnored_LD_B_n (s : State) : Host.Outcome State Fault Refusal := perform (ignoredPrefix 0x06) s

/-- `(DD ignored) RLCA` (rule R173). -/
def execDdIgnored_RLCA (s : State) : Host.Outcome State Fault Refusal := perform (ignoredPrefix 0x07) s

/-- `(DD ignored) EX AF,AF'` (rule R173). -/
def execDdIgnored_EX_AF_AF (s : State) : Host.Outcome State Fault Refusal := perform (ignoredPrefix 0x08) s

/-- `(DD ignored) LD A,(BC)` (rule R173). -/
def execDdIgnored_LD_A_atBC (s : State) : Host.Outcome State Fault Refusal := perform (ignoredPrefix 0x0A) s

/-- `(DD ignored) DEC BC` (rule R173). -/
def execDdIgnored_DEC_BC (s : State) : Host.Outcome State Fault Refusal := perform (ignoredPrefix 0x0B) s

/-- `(DD ignored) INC C` (rule R173). -/
def execDdIgnored_INC_C (s : State) : Host.Outcome State Fault Refusal := perform (ignoredPrefix 0x0C) s

/-- `(DD ignored) DEC C` (rule R173). -/
def execDdIgnored_DEC_C (s : State) : Host.Outcome State Fault Refusal := perform (ignoredPrefix 0x0D) s

/-- `(DD ignored) LD C,n` (rule R173). -/
def execDdIgnored_LD_C_n (s : State) : Host.Outcome State Fault Refusal := perform (ignoredPrefix 0x0E) s

/-- `(DD ignored) RRCA` (rule R173). -/
def execDdIgnored_RRCA (s : State) : Host.Outcome State Fault Refusal := perform (ignoredPrefix 0x0F) s

/-- `(DD ignored) DJNZ e` (rule R173). -/
def execDdIgnored_DJNZ_e (s : State) : Host.Outcome State Fault Refusal := perform (ignoredPrefix 0x10) s

/-- `(DD ignored) LD DE,nn` (rule R173). -/
def execDdIgnored_LD_DE_nn (s : State) : Host.Outcome State Fault Refusal := perform (ignoredPrefix 0x11) s

/-- `(DD ignored) LD (DE),A` (rule R173). -/
def execDdIgnored_LD_atDE_A (s : State) : Host.Outcome State Fault Refusal := perform (ignoredPrefix 0x12) s

/-- `(DD ignored) INC DE` (rule R173). -/
def execDdIgnored_INC_DE (s : State) : Host.Outcome State Fault Refusal := perform (ignoredPrefix 0x13) s

/-- `(DD ignored) INC D` (rule R173). -/
def execDdIgnored_INC_D (s : State) : Host.Outcome State Fault Refusal := perform (ignoredPrefix 0x14) s

/-- `(DD ignored) DEC D` (rule R173). -/
def execDdIgnored_DEC_D (s : State) : Host.Outcome State Fault Refusal := perform (ignoredPrefix 0x15) s

/-- `(DD ignored) LD D,n` (rule R173). -/
def execDdIgnored_LD_D_n (s : State) : Host.Outcome State Fault Refusal := perform (ignoredPrefix 0x16) s

/-- `(DD ignored) RLA` (rule R173). -/
def execDdIgnored_RLA (s : State) : Host.Outcome State Fault Refusal := perform (ignoredPrefix 0x17) s

/-- `(DD ignored) JR e` (rule R173). -/
def execDdIgnored_JR_e (s : State) : Host.Outcome State Fault Refusal := perform (ignoredPrefix 0x18) s

/-- `(DD ignored) LD A,(DE)` (rule R173). -/
def execDdIgnored_LD_A_atDE (s : State) : Host.Outcome State Fault Refusal := perform (ignoredPrefix 0x1A) s

/-- `(DD ignored) DEC DE` (rule R173). -/
def execDdIgnored_DEC_DE (s : State) : Host.Outcome State Fault Refusal := perform (ignoredPrefix 0x1B) s

/-- `(DD ignored) INC E` (rule R173). -/
def execDdIgnored_INC_E (s : State) : Host.Outcome State Fault Refusal := perform (ignoredPrefix 0x1C) s

/-- `(DD ignored) DEC E` (rule R173). -/
def execDdIgnored_DEC_E (s : State) : Host.Outcome State Fault Refusal := perform (ignoredPrefix 0x1D) s

/-- `(DD ignored) LD E,n` (rule R173). -/
def execDdIgnored_LD_E_n (s : State) : Host.Outcome State Fault Refusal := perform (ignoredPrefix 0x1E) s

/-- `(DD ignored) RRA` (rule R173). -/
def execDdIgnored_RRA (s : State) : Host.Outcome State Fault Refusal := perform (ignoredPrefix 0x1F) s

/-- `(DD ignored) JR NZ,e` (rule R173). -/
def execDdIgnored_JR_NZ_e (s : State) : Host.Outcome State Fault Refusal := perform (ignoredPrefix 0x20) s

/-- `(DD ignored) DAA` (rule R173). -/
def execDdIgnored_DAA (s : State) : Host.Outcome State Fault Refusal := perform (ignoredPrefix 0x27) s

/-- `(DD ignored) JR Z,e` (rule R173). -/
def execDdIgnored_JR_Z_e (s : State) : Host.Outcome State Fault Refusal := perform (ignoredPrefix 0x28) s

/-- `(DD ignored) CPL` (rule R173). -/
def execDdIgnored_CPL (s : State) : Host.Outcome State Fault Refusal := perform (ignoredPrefix 0x2F) s

/-- `(DD ignored) JR NC,e` (rule R173). -/
def execDdIgnored_JR_NC_e (s : State) : Host.Outcome State Fault Refusal := perform (ignoredPrefix 0x30) s

/-- `(DD ignored) LD SP,nn` (rule R173). -/
def execDdIgnored_LD_SP_nn (s : State) : Host.Outcome State Fault Refusal := perform (ignoredPrefix 0x31) s

/-- `(DD ignored) LD (nn),A` (rule R173). -/
def execDdIgnored_LD_atnn_A (s : State) : Host.Outcome State Fault Refusal := perform (ignoredPrefix 0x32) s

/-- `(DD ignored) INC SP` (rule R173). -/
def execDdIgnored_INC_SP (s : State) : Host.Outcome State Fault Refusal := perform (ignoredPrefix 0x33) s

/-- `(DD ignored) SCF` (rule R173). -/
def execDdIgnored_SCF (s : State) : Host.Outcome State Fault Refusal := perform (ignoredPrefix 0x37) s

/-- `(DD ignored) JR C,e` (rule R173). -/
def execDdIgnored_JR_C_e (s : State) : Host.Outcome State Fault Refusal := perform (ignoredPrefix 0x38) s

/-- `(DD ignored) LD A,(nn)` (rule R173). -/
def execDdIgnored_LD_A_atnn (s : State) : Host.Outcome State Fault Refusal := perform (ignoredPrefix 0x3A) s

/-- `(DD ignored) DEC SP` (rule R173). -/
def execDdIgnored_DEC_SP (s : State) : Host.Outcome State Fault Refusal := perform (ignoredPrefix 0x3B) s

/-- `(DD ignored) INC A` (rule R173). -/
def execDdIgnored_INC_A (s : State) : Host.Outcome State Fault Refusal := perform (ignoredPrefix 0x3C) s

/-- `(DD ignored) DEC A` (rule R173). -/
def execDdIgnored_DEC_A (s : State) : Host.Outcome State Fault Refusal := perform (ignoredPrefix 0x3D) s

/-- `(DD ignored) LD A,n` (rule R173). -/
def execDdIgnored_LD_A_n (s : State) : Host.Outcome State Fault Refusal := perform (ignoredPrefix 0x3E) s

/-- `(DD ignored) CCF` (rule R173). -/
def execDdIgnored_CCF (s : State) : Host.Outcome State Fault Refusal := perform (ignoredPrefix 0x3F) s

/-- `(DD ignored) LD B,B` (rule R173). -/
def execDdIgnored_LD_B_B (s : State) : Host.Outcome State Fault Refusal := perform (ignoredPrefix 0x40) s

/-- `(DD ignored) LD B,C` (rule R173). -/
def execDdIgnored_LD_B_C (s : State) : Host.Outcome State Fault Refusal := perform (ignoredPrefix 0x41) s

/-- `(DD ignored) LD B,D` (rule R173). -/
def execDdIgnored_LD_B_D (s : State) : Host.Outcome State Fault Refusal := perform (ignoredPrefix 0x42) s

/-- `(DD ignored) LD B,E` (rule R173). -/
def execDdIgnored_LD_B_E (s : State) : Host.Outcome State Fault Refusal := perform (ignoredPrefix 0x43) s

/-- `(DD ignored) LD B,A` (rule R173). -/
def execDdIgnored_LD_B_A (s : State) : Host.Outcome State Fault Refusal := perform (ignoredPrefix 0x47) s

/-- `(DD ignored) LD C,B` (rule R173). -/
def execDdIgnored_LD_C_B (s : State) : Host.Outcome State Fault Refusal := perform (ignoredPrefix 0x48) s

/-- `(DD ignored) LD C,C` (rule R173). -/
def execDdIgnored_LD_C_C (s : State) : Host.Outcome State Fault Refusal := perform (ignoredPrefix 0x49) s

/-- `(DD ignored) LD C,D` (rule R173). -/
def execDdIgnored_LD_C_D (s : State) : Host.Outcome State Fault Refusal := perform (ignoredPrefix 0x4A) s

/-- `(DD ignored) LD C,E` (rule R173). -/
def execDdIgnored_LD_C_E (s : State) : Host.Outcome State Fault Refusal := perform (ignoredPrefix 0x4B) s

/-- `(DD ignored) LD C,A` (rule R173). -/
def execDdIgnored_LD_C_A (s : State) : Host.Outcome State Fault Refusal := perform (ignoredPrefix 0x4F) s

/-- `(DD ignored) LD D,B` (rule R173). -/
def execDdIgnored_LD_D_B (s : State) : Host.Outcome State Fault Refusal := perform (ignoredPrefix 0x50) s

/-- `(DD ignored) LD D,C` (rule R173). -/
def execDdIgnored_LD_D_C (s : State) : Host.Outcome State Fault Refusal := perform (ignoredPrefix 0x51) s

/-- `(DD ignored) LD D,D` (rule R173). -/
def execDdIgnored_LD_D_D (s : State) : Host.Outcome State Fault Refusal := perform (ignoredPrefix 0x52) s

/-- `(DD ignored) LD D,E` (rule R173). -/
def execDdIgnored_LD_D_E (s : State) : Host.Outcome State Fault Refusal := perform (ignoredPrefix 0x53) s

/-- `(DD ignored) LD D,A` (rule R173). -/
def execDdIgnored_LD_D_A (s : State) : Host.Outcome State Fault Refusal := perform (ignoredPrefix 0x57) s

/-- `(DD ignored) LD E,B` (rule R173). -/
def execDdIgnored_LD_E_B (s : State) : Host.Outcome State Fault Refusal := perform (ignoredPrefix 0x58) s

/-- `(DD ignored) LD E,C` (rule R173). -/
def execDdIgnored_LD_E_C (s : State) : Host.Outcome State Fault Refusal := perform (ignoredPrefix 0x59) s

/-- `(DD ignored) LD E,D` (rule R173). -/
def execDdIgnored_LD_E_D (s : State) : Host.Outcome State Fault Refusal := perform (ignoredPrefix 0x5A) s

/-- `(DD ignored) LD E,E` (rule R173). -/
def execDdIgnored_LD_E_E (s : State) : Host.Outcome State Fault Refusal := perform (ignoredPrefix 0x5B) s

/-- `(DD ignored) LD E,A` (rule R173). -/
def execDdIgnored_LD_E_A (s : State) : Host.Outcome State Fault Refusal := perform (ignoredPrefix 0x5F) s

/-- `(DD ignored) HALT` (rule R173). -/
def execDdIgnored_HALT (s : State) : Host.Outcome State Fault Refusal := perform (ignoredPrefix 0x76) s

/-- `(DD ignored) LD A,B` (rule R173). -/
def execDdIgnored_LD_A_B (s : State) : Host.Outcome State Fault Refusal := perform (ignoredPrefix 0x78) s

/-- `(DD ignored) LD A,C` (rule R173). -/
def execDdIgnored_LD_A_C (s : State) : Host.Outcome State Fault Refusal := perform (ignoredPrefix 0x79) s

/-- `(DD ignored) LD A,D` (rule R173). -/
def execDdIgnored_LD_A_D (s : State) : Host.Outcome State Fault Refusal := perform (ignoredPrefix 0x7A) s

/-- `(DD ignored) LD A,E` (rule R173). -/
def execDdIgnored_LD_A_E (s : State) : Host.Outcome State Fault Refusal := perform (ignoredPrefix 0x7B) s

/-- `(DD ignored) LD A,A` (rule R173). -/
def execDdIgnored_LD_A_A (s : State) : Host.Outcome State Fault Refusal := perform (ignoredPrefix 0x7F) s

/-- `(DD ignored) ADD A,B` (rule R173). -/
def execDdIgnored_ADD_A_B (s : State) : Host.Outcome State Fault Refusal := perform (ignoredPrefix 0x80) s

/-- `(DD ignored) ADD A,C` (rule R173). -/
def execDdIgnored_ADD_A_C (s : State) : Host.Outcome State Fault Refusal := perform (ignoredPrefix 0x81) s

/-- `(DD ignored) ADD A,D` (rule R173). -/
def execDdIgnored_ADD_A_D (s : State) : Host.Outcome State Fault Refusal := perform (ignoredPrefix 0x82) s

/-- `(DD ignored) ADD A,E` (rule R173). -/
def execDdIgnored_ADD_A_E (s : State) : Host.Outcome State Fault Refusal := perform (ignoredPrefix 0x83) s

/-- `(DD ignored) ADD A,A` (rule R173). -/
def execDdIgnored_ADD_A_A (s : State) : Host.Outcome State Fault Refusal := perform (ignoredPrefix 0x87) s

/-- `(DD ignored) ADC A,B` (rule R173). -/
def execDdIgnored_ADC_A_B (s : State) : Host.Outcome State Fault Refusal := perform (ignoredPrefix 0x88) s

/-- `(DD ignored) ADC A,C` (rule R173). -/
def execDdIgnored_ADC_A_C (s : State) : Host.Outcome State Fault Refusal := perform (ignoredPrefix 0x89) s

/-- `(DD ignored) ADC A,D` (rule R173). -/
def execDdIgnored_ADC_A_D (s : State) : Host.Outcome State Fault Refusal := perform (ignoredPrefix 0x8A) s

/-- `(DD ignored) ADC A,E` (rule R173). -/
def execDdIgnored_ADC_A_E (s : State) : Host.Outcome State Fault Refusal := perform (ignoredPrefix 0x8B) s

/-- `(DD ignored) ADC A,A` (rule R173). -/
def execDdIgnored_ADC_A_A (s : State) : Host.Outcome State Fault Refusal := perform (ignoredPrefix 0x8F) s

/-- `(DD ignored) SUB B` (rule R173). -/
def execDdIgnored_SUB_B (s : State) : Host.Outcome State Fault Refusal := perform (ignoredPrefix 0x90) s

/-- `(DD ignored) SUB C` (rule R173). -/
def execDdIgnored_SUB_C (s : State) : Host.Outcome State Fault Refusal := perform (ignoredPrefix 0x91) s

/-- `(DD ignored) SUB D` (rule R173). -/
def execDdIgnored_SUB_D (s : State) : Host.Outcome State Fault Refusal := perform (ignoredPrefix 0x92) s

/-- `(DD ignored) SUB E` (rule R173). -/
def execDdIgnored_SUB_E (s : State) : Host.Outcome State Fault Refusal := perform (ignoredPrefix 0x93) s

/-- `(DD ignored) SUB A` (rule R173). -/
def execDdIgnored_SUB_A (s : State) : Host.Outcome State Fault Refusal := perform (ignoredPrefix 0x97) s

/-- `(DD ignored) SBC A,B` (rule R173). -/
def execDdIgnored_SBC_A_B (s : State) : Host.Outcome State Fault Refusal := perform (ignoredPrefix 0x98) s

/-- `(DD ignored) SBC A,C` (rule R173). -/
def execDdIgnored_SBC_A_C (s : State) : Host.Outcome State Fault Refusal := perform (ignoredPrefix 0x99) s

/-- `(DD ignored) SBC A,D` (rule R173). -/
def execDdIgnored_SBC_A_D (s : State) : Host.Outcome State Fault Refusal := perform (ignoredPrefix 0x9A) s

/-- `(DD ignored) SBC A,E` (rule R173). -/
def execDdIgnored_SBC_A_E (s : State) : Host.Outcome State Fault Refusal := perform (ignoredPrefix 0x9B) s

/-- `(DD ignored) SBC A,A` (rule R173). -/
def execDdIgnored_SBC_A_A (s : State) : Host.Outcome State Fault Refusal := perform (ignoredPrefix 0x9F) s

/-- `(DD ignored) AND B` (rule R173). -/
def execDdIgnored_AND_B (s : State) : Host.Outcome State Fault Refusal := perform (ignoredPrefix 0xA0) s

/-- `(DD ignored) AND C` (rule R173). -/
def execDdIgnored_AND_C (s : State) : Host.Outcome State Fault Refusal := perform (ignoredPrefix 0xA1) s

/-- `(DD ignored) AND D` (rule R173). -/
def execDdIgnored_AND_D (s : State) : Host.Outcome State Fault Refusal := perform (ignoredPrefix 0xA2) s

/-- `(DD ignored) AND E` (rule R173). -/
def execDdIgnored_AND_E (s : State) : Host.Outcome State Fault Refusal := perform (ignoredPrefix 0xA3) s

/-- `(DD ignored) AND A` (rule R173). -/
def execDdIgnored_AND_A (s : State) : Host.Outcome State Fault Refusal := perform (ignoredPrefix 0xA7) s

/-- `(DD ignored) XOR B` (rule R173). -/
def execDdIgnored_XOR_B (s : State) : Host.Outcome State Fault Refusal := perform (ignoredPrefix 0xA8) s

/-- `(DD ignored) XOR C` (rule R173). -/
def execDdIgnored_XOR_C (s : State) : Host.Outcome State Fault Refusal := perform (ignoredPrefix 0xA9) s

/-- `(DD ignored) XOR D` (rule R173). -/
def execDdIgnored_XOR_D (s : State) : Host.Outcome State Fault Refusal := perform (ignoredPrefix 0xAA) s

/-- `(DD ignored) XOR E` (rule R173). -/
def execDdIgnored_XOR_E (s : State) : Host.Outcome State Fault Refusal := perform (ignoredPrefix 0xAB) s

/-- `(DD ignored) XOR A` (rule R173). -/
def execDdIgnored_XOR_A (s : State) : Host.Outcome State Fault Refusal := perform (ignoredPrefix 0xAF) s

/-- `(DD ignored) OR B` (rule R173). -/
def execDdIgnored_OR_B (s : State) : Host.Outcome State Fault Refusal := perform (ignoredPrefix 0xB0) s

/-- `(DD ignored) OR C` (rule R173). -/
def execDdIgnored_OR_C (s : State) : Host.Outcome State Fault Refusal := perform (ignoredPrefix 0xB1) s

/-- `(DD ignored) OR D` (rule R173). -/
def execDdIgnored_OR_D (s : State) : Host.Outcome State Fault Refusal := perform (ignoredPrefix 0xB2) s

/-- `(DD ignored) OR E` (rule R173). -/
def execDdIgnored_OR_E (s : State) : Host.Outcome State Fault Refusal := perform (ignoredPrefix 0xB3) s

/-- `(DD ignored) OR A` (rule R173). -/
def execDdIgnored_OR_A (s : State) : Host.Outcome State Fault Refusal := perform (ignoredPrefix 0xB7) s

/-- `(DD ignored) CP B` (rule R173). -/
def execDdIgnored_CP_B (s : State) : Host.Outcome State Fault Refusal := perform (ignoredPrefix 0xB8) s

/-- `(DD ignored) CP C` (rule R173). -/
def execDdIgnored_CP_C (s : State) : Host.Outcome State Fault Refusal := perform (ignoredPrefix 0xB9) s

/-- `(DD ignored) CP D` (rule R173). -/
def execDdIgnored_CP_D (s : State) : Host.Outcome State Fault Refusal := perform (ignoredPrefix 0xBA) s

/-- `(DD ignored) CP E` (rule R173). -/
def execDdIgnored_CP_E (s : State) : Host.Outcome State Fault Refusal := perform (ignoredPrefix 0xBB) s

/-- `(DD ignored) CP A` (rule R173). -/
def execDdIgnored_CP_A (s : State) : Host.Outcome State Fault Refusal := perform (ignoredPrefix 0xBF) s

/-- `(DD ignored) RET NZ` (rule R173). -/
def execDdIgnored_RET_NZ (s : State) : Host.Outcome State Fault Refusal := perform (ignoredPrefix 0xC0) s

/-- `(DD ignored) POP BC` (rule R173). -/
def execDdIgnored_POP_BC (s : State) : Host.Outcome State Fault Refusal := perform (ignoredPrefix 0xC1) s

/-- `(DD ignored) JP NZ,nn` (rule R173). -/
def execDdIgnored_JP_NZ_nn (s : State) : Host.Outcome State Fault Refusal := perform (ignoredPrefix 0xC2) s

/-- `(DD ignored) JP nn` (rule R173). -/
def execDdIgnored_JP_nn (s : State) : Host.Outcome State Fault Refusal := perform (ignoredPrefix 0xC3) s

/-- `(DD ignored) CALL NZ,nn` (rule R173). -/
def execDdIgnored_CALL_NZ_nn (s : State) : Host.Outcome State Fault Refusal := perform (ignoredPrefix 0xC4) s

/-- `(DD ignored) PUSH BC` (rule R173). -/
def execDdIgnored_PUSH_BC (s : State) : Host.Outcome State Fault Refusal := perform (ignoredPrefix 0xC5) s

/-- `(DD ignored) ADD A,n` (rule R173). -/
def execDdIgnored_ADD_A_n (s : State) : Host.Outcome State Fault Refusal := perform (ignoredPrefix 0xC6) s

/-- `(DD ignored) RST 00H` (rule R173). -/
def execDdIgnored_RST_00H (s : State) : Host.Outcome State Fault Refusal := perform (ignoredPrefix 0xC7) s

/-- `(DD ignored) RET Z` (rule R173). -/
def execDdIgnored_RET_Z (s : State) : Host.Outcome State Fault Refusal := perform (ignoredPrefix 0xC8) s

/-- `(DD ignored) RET` (rule R173). -/
def execDdIgnored_RET (s : State) : Host.Outcome State Fault Refusal := perform (ignoredPrefix 0xC9) s

/-- `(DD ignored) JP Z,nn` (rule R173). -/
def execDdIgnored_JP_Z_nn (s : State) : Host.Outcome State Fault Refusal := perform (ignoredPrefix 0xCA) s

/-- `(DD ignored) CALL Z,nn` (rule R173). -/
def execDdIgnored_CALL_Z_nn (s : State) : Host.Outcome State Fault Refusal := perform (ignoredPrefix 0xCC) s

/-- `(DD ignored) CALL nn` (rule R173). -/
def execDdIgnored_CALL_nn (s : State) : Host.Outcome State Fault Refusal := perform (ignoredPrefix 0xCD) s

/-- `(DD ignored) ADC A,n` (rule R173). -/
def execDdIgnored_ADC_A_n (s : State) : Host.Outcome State Fault Refusal := perform (ignoredPrefix 0xCE) s

/-- `(DD ignored) RST 08H` (rule R173). -/
def execDdIgnored_RST_08H (s : State) : Host.Outcome State Fault Refusal := perform (ignoredPrefix 0xCF) s

/-- `(DD ignored) RET NC` (rule R173). -/
def execDdIgnored_RET_NC (s : State) : Host.Outcome State Fault Refusal := perform (ignoredPrefix 0xD0) s

/-- `(DD ignored) POP DE` (rule R173). -/
def execDdIgnored_POP_DE (s : State) : Host.Outcome State Fault Refusal := perform (ignoredPrefix 0xD1) s

/-- `(DD ignored) JP NC,nn` (rule R173). -/
def execDdIgnored_JP_NC_nn (s : State) : Host.Outcome State Fault Refusal := perform (ignoredPrefix 0xD2) s

/-- `(DD ignored) OUT (n),A` (rule R173). -/
def execDdIgnored_OUT_atn_A (s : State) : Host.Outcome State Fault Refusal := perform (ignoredPrefix 0xD3) s

/-- `(DD ignored) CALL NC,nn` (rule R173). -/
def execDdIgnored_CALL_NC_nn (s : State) : Host.Outcome State Fault Refusal := perform (ignoredPrefix 0xD4) s

/-- `(DD ignored) PUSH DE` (rule R173). -/
def execDdIgnored_PUSH_DE (s : State) : Host.Outcome State Fault Refusal := perform (ignoredPrefix 0xD5) s

/-- `(DD ignored) SUB n` (rule R173). -/
def execDdIgnored_SUB_n (s : State) : Host.Outcome State Fault Refusal := perform (ignoredPrefix 0xD6) s

/-- `(DD ignored) RST 10H` (rule R173). -/
def execDdIgnored_RST_10H (s : State) : Host.Outcome State Fault Refusal := perform (ignoredPrefix 0xD7) s

/-- `(DD ignored) RET C` (rule R173). -/
def execDdIgnored_RET_C (s : State) : Host.Outcome State Fault Refusal := perform (ignoredPrefix 0xD8) s

/-- `(DD ignored) EXX` (rule R173). -/
def execDdIgnored_EXX (s : State) : Host.Outcome State Fault Refusal := perform (ignoredPrefix 0xD9) s

/-- `(DD ignored) JP C,nn` (rule R173). -/
def execDdIgnored_JP_C_nn (s : State) : Host.Outcome State Fault Refusal := perform (ignoredPrefix 0xDA) s

/-- `(DD ignored) IN A,(n)` (rule R173). -/
def execDdIgnored_IN_A_atn (s : State) : Host.Outcome State Fault Refusal := perform (ignoredPrefix 0xDB) s

/-- `(DD ignored) CALL C,nn` (rule R173). -/
def execDdIgnored_CALL_C_nn (s : State) : Host.Outcome State Fault Refusal := perform (ignoredPrefix 0xDC) s

/-- `(DD ignored) prefix DD` (rule R173). -/
def execDdIgnored_prefix_DD (s : State) : Host.Outcome State Fault Refusal := perform (ignoredPrefix 0xDD) s

/-- `(DD ignored) SBC A,n` (rule R173). -/
def execDdIgnored_SBC_A_n (s : State) : Host.Outcome State Fault Refusal := perform (ignoredPrefix 0xDE) s

/-- `(DD ignored) RST 18H` (rule R173). -/
def execDdIgnored_RST_18H (s : State) : Host.Outcome State Fault Refusal := perform (ignoredPrefix 0xDF) s

/-- `(DD ignored) RET PO` (rule R173). -/
def execDdIgnored_RET_PO (s : State) : Host.Outcome State Fault Refusal := perform (ignoredPrefix 0xE0) s

/-- `(DD ignored) JP PO,nn` (rule R173). -/
def execDdIgnored_JP_PO_nn (s : State) : Host.Outcome State Fault Refusal := perform (ignoredPrefix 0xE2) s

/-- `(DD ignored) CALL PO,nn` (rule R173). -/
def execDdIgnored_CALL_PO_nn (s : State) : Host.Outcome State Fault Refusal := perform (ignoredPrefix 0xE4) s

/-- `(DD ignored) AND n` (rule R173). -/
def execDdIgnored_AND_n (s : State) : Host.Outcome State Fault Refusal := perform (ignoredPrefix 0xE6) s

/-- `(DD ignored) RST 20H` (rule R173). -/
def execDdIgnored_RST_20H (s : State) : Host.Outcome State Fault Refusal := perform (ignoredPrefix 0xE7) s

/-- `(DD ignored) RET PE` (rule R173). -/
def execDdIgnored_RET_PE (s : State) : Host.Outcome State Fault Refusal := perform (ignoredPrefix 0xE8) s

/-- `(DD ignored) JP PE,nn` (rule R173). -/
def execDdIgnored_JP_PE_nn (s : State) : Host.Outcome State Fault Refusal := perform (ignoredPrefix 0xEA) s

/-- `(DD ignored) EX DE,HL` (rule R173). -/
def execDdIgnored_EX_DE_HL (s : State) : Host.Outcome State Fault Refusal := perform (ignoredPrefix 0xEB) s

/-- `(DD ignored) CALL PE,nn` (rule R173). -/
def execDdIgnored_CALL_PE_nn (s : State) : Host.Outcome State Fault Refusal := perform (ignoredPrefix 0xEC) s

/-- `(DD ignored) ED page` (rule R173). -/
def execDdIgnored_ED_page (s : State) : Host.Outcome State Fault Refusal := perform (ignoredPrefix 0xED) s

/-- `(DD ignored) XOR n` (rule R173). -/
def execDdIgnored_XOR_n (s : State) : Host.Outcome State Fault Refusal := perform (ignoredPrefix 0xEE) s

/-- `(DD ignored) RST 28H` (rule R173). -/
def execDdIgnored_RST_28H (s : State) : Host.Outcome State Fault Refusal := perform (ignoredPrefix 0xEF) s

/-- `(DD ignored) RET P` (rule R173). -/
def execDdIgnored_RET_P (s : State) : Host.Outcome State Fault Refusal := perform (ignoredPrefix 0xF0) s

/-- `(DD ignored) POP AF` (rule R173). -/
def execDdIgnored_POP_AF (s : State) : Host.Outcome State Fault Refusal := perform (ignoredPrefix 0xF1) s

/-- `(DD ignored) JP P,nn` (rule R173). -/
def execDdIgnored_JP_P_nn (s : State) : Host.Outcome State Fault Refusal := perform (ignoredPrefix 0xF2) s

/-- `(DD ignored) DI` (rule R173). -/
def execDdIgnored_DI (s : State) : Host.Outcome State Fault Refusal := perform (ignoredPrefix 0xF3) s

/-- `(DD ignored) CALL P,nn` (rule R173). -/
def execDdIgnored_CALL_P_nn (s : State) : Host.Outcome State Fault Refusal := perform (ignoredPrefix 0xF4) s

/-- `(DD ignored) PUSH AF` (rule R173). -/
def execDdIgnored_PUSH_AF (s : State) : Host.Outcome State Fault Refusal := perform (ignoredPrefix 0xF5) s

/-- `(DD ignored) OR n` (rule R173). -/
def execDdIgnored_OR_n (s : State) : Host.Outcome State Fault Refusal := perform (ignoredPrefix 0xF6) s

/-- `(DD ignored) RST 30H` (rule R173). -/
def execDdIgnored_RST_30H (s : State) : Host.Outcome State Fault Refusal := perform (ignoredPrefix 0xF7) s

/-- `(DD ignored) RET M` (rule R173). -/
def execDdIgnored_RET_M (s : State) : Host.Outcome State Fault Refusal := perform (ignoredPrefix 0xF8) s

/-- `(DD ignored) JP M,nn` (rule R173). -/
def execDdIgnored_JP_M_nn (s : State) : Host.Outcome State Fault Refusal := perform (ignoredPrefix 0xFA) s

/-- `(DD ignored) EI` (rule R173). -/
def execDdIgnored_EI (s : State) : Host.Outcome State Fault Refusal := perform (ignoredPrefix 0xFB) s

/-- `(DD ignored) CALL M,nn` (rule R173). -/
def execDdIgnored_CALL_M_nn (s : State) : Host.Outcome State Fault Refusal := perform (ignoredPrefix 0xFC) s

/-- `(DD ignored) prefix FD` (rule R173). -/
def execDdIgnored_prefix_FD (s : State) : Host.Outcome State Fault Refusal := perform (ignoredPrefix 0xFD) s

/-- `(DD ignored) CP n` (rule R173). -/
def execDdIgnored_CP_n (s : State) : Host.Outcome State Fault Refusal := perform (ignoredPrefix 0xFE) s

/-- `(DD ignored) RST 38H` (rule R173). -/
def execDdIgnored_RST_38H (s : State) : Host.Outcome State Fault Refusal := perform (ignoredPrefix 0xFF) s

/-- `(FD ignored) NOP` (rule R173). -/
def execFdIgnored_NOP (s : State) : Host.Outcome State Fault Refusal := perform (ignoredPrefix 0x00) s

/-- `(FD ignored) LD BC,nn` (rule R173). -/
def execFdIgnored_LD_BC_nn (s : State) : Host.Outcome State Fault Refusal := perform (ignoredPrefix 0x01) s

/-- `(FD ignored) LD (BC),A` (rule R173). -/
def execFdIgnored_LD_atBC_A (s : State) : Host.Outcome State Fault Refusal := perform (ignoredPrefix 0x02) s

/-- `(FD ignored) INC BC` (rule R173). -/
def execFdIgnored_INC_BC (s : State) : Host.Outcome State Fault Refusal := perform (ignoredPrefix 0x03) s

/-- `(FD ignored) INC B` (rule R173). -/
def execFdIgnored_INC_B (s : State) : Host.Outcome State Fault Refusal := perform (ignoredPrefix 0x04) s

/-- `(FD ignored) DEC B` (rule R173). -/
def execFdIgnored_DEC_B (s : State) : Host.Outcome State Fault Refusal := perform (ignoredPrefix 0x05) s

/-- `(FD ignored) LD B,n` (rule R173). -/
def execFdIgnored_LD_B_n (s : State) : Host.Outcome State Fault Refusal := perform (ignoredPrefix 0x06) s

/-- `(FD ignored) RLCA` (rule R173). -/
def execFdIgnored_RLCA (s : State) : Host.Outcome State Fault Refusal := perform (ignoredPrefix 0x07) s

/-- `(FD ignored) EX AF,AF'` (rule R173). -/
def execFdIgnored_EX_AF_AF (s : State) : Host.Outcome State Fault Refusal := perform (ignoredPrefix 0x08) s

/-- `(FD ignored) LD A,(BC)` (rule R173). -/
def execFdIgnored_LD_A_atBC (s : State) : Host.Outcome State Fault Refusal := perform (ignoredPrefix 0x0A) s

/-- `(FD ignored) DEC BC` (rule R173). -/
def execFdIgnored_DEC_BC (s : State) : Host.Outcome State Fault Refusal := perform (ignoredPrefix 0x0B) s

/-- `(FD ignored) INC C` (rule R173). -/
def execFdIgnored_INC_C (s : State) : Host.Outcome State Fault Refusal := perform (ignoredPrefix 0x0C) s

/-- `(FD ignored) DEC C` (rule R173). -/
def execFdIgnored_DEC_C (s : State) : Host.Outcome State Fault Refusal := perform (ignoredPrefix 0x0D) s

/-- `(FD ignored) LD C,n` (rule R173). -/
def execFdIgnored_LD_C_n (s : State) : Host.Outcome State Fault Refusal := perform (ignoredPrefix 0x0E) s

/-- `(FD ignored) RRCA` (rule R173). -/
def execFdIgnored_RRCA (s : State) : Host.Outcome State Fault Refusal := perform (ignoredPrefix 0x0F) s

/-- `(FD ignored) DJNZ e` (rule R173). -/
def execFdIgnored_DJNZ_e (s : State) : Host.Outcome State Fault Refusal := perform (ignoredPrefix 0x10) s

/-- `(FD ignored) LD DE,nn` (rule R173). -/
def execFdIgnored_LD_DE_nn (s : State) : Host.Outcome State Fault Refusal := perform (ignoredPrefix 0x11) s

/-- `(FD ignored) LD (DE),A` (rule R173). -/
def execFdIgnored_LD_atDE_A (s : State) : Host.Outcome State Fault Refusal := perform (ignoredPrefix 0x12) s

/-- `(FD ignored) INC DE` (rule R173). -/
def execFdIgnored_INC_DE (s : State) : Host.Outcome State Fault Refusal := perform (ignoredPrefix 0x13) s

/-- `(FD ignored) INC D` (rule R173). -/
def execFdIgnored_INC_D (s : State) : Host.Outcome State Fault Refusal := perform (ignoredPrefix 0x14) s

/-- `(FD ignored) DEC D` (rule R173). -/
def execFdIgnored_DEC_D (s : State) : Host.Outcome State Fault Refusal := perform (ignoredPrefix 0x15) s

/-- `(FD ignored) LD D,n` (rule R173). -/
def execFdIgnored_LD_D_n (s : State) : Host.Outcome State Fault Refusal := perform (ignoredPrefix 0x16) s

/-- `(FD ignored) RLA` (rule R173). -/
def execFdIgnored_RLA (s : State) : Host.Outcome State Fault Refusal := perform (ignoredPrefix 0x17) s

/-- `(FD ignored) JR e` (rule R173). -/
def execFdIgnored_JR_e (s : State) : Host.Outcome State Fault Refusal := perform (ignoredPrefix 0x18) s

/-- `(FD ignored) LD A,(DE)` (rule R173). -/
def execFdIgnored_LD_A_atDE (s : State) : Host.Outcome State Fault Refusal := perform (ignoredPrefix 0x1A) s

/-- `(FD ignored) DEC DE` (rule R173). -/
def execFdIgnored_DEC_DE (s : State) : Host.Outcome State Fault Refusal := perform (ignoredPrefix 0x1B) s

/-- `(FD ignored) INC E` (rule R173). -/
def execFdIgnored_INC_E (s : State) : Host.Outcome State Fault Refusal := perform (ignoredPrefix 0x1C) s

/-- `(FD ignored) DEC E` (rule R173). -/
def execFdIgnored_DEC_E (s : State) : Host.Outcome State Fault Refusal := perform (ignoredPrefix 0x1D) s

/-- `(FD ignored) LD E,n` (rule R173). -/
def execFdIgnored_LD_E_n (s : State) : Host.Outcome State Fault Refusal := perform (ignoredPrefix 0x1E) s

/-- `(FD ignored) RRA` (rule R173). -/
def execFdIgnored_RRA (s : State) : Host.Outcome State Fault Refusal := perform (ignoredPrefix 0x1F) s

/-- `(FD ignored) JR NZ,e` (rule R173). -/
def execFdIgnored_JR_NZ_e (s : State) : Host.Outcome State Fault Refusal := perform (ignoredPrefix 0x20) s

/-- `(FD ignored) DAA` (rule R173). -/
def execFdIgnored_DAA (s : State) : Host.Outcome State Fault Refusal := perform (ignoredPrefix 0x27) s

/-- `(FD ignored) JR Z,e` (rule R173). -/
def execFdIgnored_JR_Z_e (s : State) : Host.Outcome State Fault Refusal := perform (ignoredPrefix 0x28) s

/-- `(FD ignored) CPL` (rule R173). -/
def execFdIgnored_CPL (s : State) : Host.Outcome State Fault Refusal := perform (ignoredPrefix 0x2F) s

/-- `(FD ignored) JR NC,e` (rule R173). -/
def execFdIgnored_JR_NC_e (s : State) : Host.Outcome State Fault Refusal := perform (ignoredPrefix 0x30) s

/-- `(FD ignored) LD SP,nn` (rule R173). -/
def execFdIgnored_LD_SP_nn (s : State) : Host.Outcome State Fault Refusal := perform (ignoredPrefix 0x31) s

/-- `(FD ignored) LD (nn),A` (rule R173). -/
def execFdIgnored_LD_atnn_A (s : State) : Host.Outcome State Fault Refusal := perform (ignoredPrefix 0x32) s

/-- `(FD ignored) INC SP` (rule R173). -/
def execFdIgnored_INC_SP (s : State) : Host.Outcome State Fault Refusal := perform (ignoredPrefix 0x33) s

/-- `(FD ignored) SCF` (rule R173). -/
def execFdIgnored_SCF (s : State) : Host.Outcome State Fault Refusal := perform (ignoredPrefix 0x37) s

/-- `(FD ignored) JR C,e` (rule R173). -/
def execFdIgnored_JR_C_e (s : State) : Host.Outcome State Fault Refusal := perform (ignoredPrefix 0x38) s

/-- `(FD ignored) LD A,(nn)` (rule R173). -/
def execFdIgnored_LD_A_atnn (s : State) : Host.Outcome State Fault Refusal := perform (ignoredPrefix 0x3A) s

/-- `(FD ignored) DEC SP` (rule R173). -/
def execFdIgnored_DEC_SP (s : State) : Host.Outcome State Fault Refusal := perform (ignoredPrefix 0x3B) s

/-- `(FD ignored) INC A` (rule R173). -/
def execFdIgnored_INC_A (s : State) : Host.Outcome State Fault Refusal := perform (ignoredPrefix 0x3C) s

/-- `(FD ignored) DEC A` (rule R173). -/
def execFdIgnored_DEC_A (s : State) : Host.Outcome State Fault Refusal := perform (ignoredPrefix 0x3D) s

/-- `(FD ignored) LD A,n` (rule R173). -/
def execFdIgnored_LD_A_n (s : State) : Host.Outcome State Fault Refusal := perform (ignoredPrefix 0x3E) s

/-- `(FD ignored) CCF` (rule R173). -/
def execFdIgnored_CCF (s : State) : Host.Outcome State Fault Refusal := perform (ignoredPrefix 0x3F) s

/-- `(FD ignored) LD B,B` (rule R173). -/
def execFdIgnored_LD_B_B (s : State) : Host.Outcome State Fault Refusal := perform (ignoredPrefix 0x40) s

/-- `(FD ignored) LD B,C` (rule R173). -/
def execFdIgnored_LD_B_C (s : State) : Host.Outcome State Fault Refusal := perform (ignoredPrefix 0x41) s

/-- `(FD ignored) LD B,D` (rule R173). -/
def execFdIgnored_LD_B_D (s : State) : Host.Outcome State Fault Refusal := perform (ignoredPrefix 0x42) s

/-- `(FD ignored) LD B,E` (rule R173). -/
def execFdIgnored_LD_B_E (s : State) : Host.Outcome State Fault Refusal := perform (ignoredPrefix 0x43) s

/-- `(FD ignored) LD B,A` (rule R173). -/
def execFdIgnored_LD_B_A (s : State) : Host.Outcome State Fault Refusal := perform (ignoredPrefix 0x47) s

/-- `(FD ignored) LD C,B` (rule R173). -/
def execFdIgnored_LD_C_B (s : State) : Host.Outcome State Fault Refusal := perform (ignoredPrefix 0x48) s

/-- `(FD ignored) LD C,C` (rule R173). -/
def execFdIgnored_LD_C_C (s : State) : Host.Outcome State Fault Refusal := perform (ignoredPrefix 0x49) s

/-- `(FD ignored) LD C,D` (rule R173). -/
def execFdIgnored_LD_C_D (s : State) : Host.Outcome State Fault Refusal := perform (ignoredPrefix 0x4A) s

/-- `(FD ignored) LD C,E` (rule R173). -/
def execFdIgnored_LD_C_E (s : State) : Host.Outcome State Fault Refusal := perform (ignoredPrefix 0x4B) s

/-- `(FD ignored) LD C,A` (rule R173). -/
def execFdIgnored_LD_C_A (s : State) : Host.Outcome State Fault Refusal := perform (ignoredPrefix 0x4F) s

/-- `(FD ignored) LD D,B` (rule R173). -/
def execFdIgnored_LD_D_B (s : State) : Host.Outcome State Fault Refusal := perform (ignoredPrefix 0x50) s

/-- `(FD ignored) LD D,C` (rule R173). -/
def execFdIgnored_LD_D_C (s : State) : Host.Outcome State Fault Refusal := perform (ignoredPrefix 0x51) s

/-- `(FD ignored) LD D,D` (rule R173). -/
def execFdIgnored_LD_D_D (s : State) : Host.Outcome State Fault Refusal := perform (ignoredPrefix 0x52) s

/-- `(FD ignored) LD D,E` (rule R173). -/
def execFdIgnored_LD_D_E (s : State) : Host.Outcome State Fault Refusal := perform (ignoredPrefix 0x53) s

/-- `(FD ignored) LD D,A` (rule R173). -/
def execFdIgnored_LD_D_A (s : State) : Host.Outcome State Fault Refusal := perform (ignoredPrefix 0x57) s

/-- `(FD ignored) LD E,B` (rule R173). -/
def execFdIgnored_LD_E_B (s : State) : Host.Outcome State Fault Refusal := perform (ignoredPrefix 0x58) s

/-- `(FD ignored) LD E,C` (rule R173). -/
def execFdIgnored_LD_E_C (s : State) : Host.Outcome State Fault Refusal := perform (ignoredPrefix 0x59) s

/-- `(FD ignored) LD E,D` (rule R173). -/
def execFdIgnored_LD_E_D (s : State) : Host.Outcome State Fault Refusal := perform (ignoredPrefix 0x5A) s

/-- `(FD ignored) LD E,E` (rule R173). -/
def execFdIgnored_LD_E_E (s : State) : Host.Outcome State Fault Refusal := perform (ignoredPrefix 0x5B) s

/-- `(FD ignored) LD E,A` (rule R173). -/
def execFdIgnored_LD_E_A (s : State) : Host.Outcome State Fault Refusal := perform (ignoredPrefix 0x5F) s

/-- `(FD ignored) HALT` (rule R173). -/
def execFdIgnored_HALT (s : State) : Host.Outcome State Fault Refusal := perform (ignoredPrefix 0x76) s

/-- `(FD ignored) LD A,B` (rule R173). -/
def execFdIgnored_LD_A_B (s : State) : Host.Outcome State Fault Refusal := perform (ignoredPrefix 0x78) s

/-- `(FD ignored) LD A,C` (rule R173). -/
def execFdIgnored_LD_A_C (s : State) : Host.Outcome State Fault Refusal := perform (ignoredPrefix 0x79) s

/-- `(FD ignored) LD A,D` (rule R173). -/
def execFdIgnored_LD_A_D (s : State) : Host.Outcome State Fault Refusal := perform (ignoredPrefix 0x7A) s

/-- `(FD ignored) LD A,E` (rule R173). -/
def execFdIgnored_LD_A_E (s : State) : Host.Outcome State Fault Refusal := perform (ignoredPrefix 0x7B) s

/-- `(FD ignored) LD A,A` (rule R173). -/
def execFdIgnored_LD_A_A (s : State) : Host.Outcome State Fault Refusal := perform (ignoredPrefix 0x7F) s

/-- `(FD ignored) ADD A,B` (rule R173). -/
def execFdIgnored_ADD_A_B (s : State) : Host.Outcome State Fault Refusal := perform (ignoredPrefix 0x80) s

/-- `(FD ignored) ADD A,C` (rule R173). -/
def execFdIgnored_ADD_A_C (s : State) : Host.Outcome State Fault Refusal := perform (ignoredPrefix 0x81) s

/-- `(FD ignored) ADD A,D` (rule R173). -/
def execFdIgnored_ADD_A_D (s : State) : Host.Outcome State Fault Refusal := perform (ignoredPrefix 0x82) s

/-- `(FD ignored) ADD A,E` (rule R173). -/
def execFdIgnored_ADD_A_E (s : State) : Host.Outcome State Fault Refusal := perform (ignoredPrefix 0x83) s

/-- `(FD ignored) ADD A,A` (rule R173). -/
def execFdIgnored_ADD_A_A (s : State) : Host.Outcome State Fault Refusal := perform (ignoredPrefix 0x87) s

/-- `(FD ignored) ADC A,B` (rule R173). -/
def execFdIgnored_ADC_A_B (s : State) : Host.Outcome State Fault Refusal := perform (ignoredPrefix 0x88) s

/-- `(FD ignored) ADC A,C` (rule R173). -/
def execFdIgnored_ADC_A_C (s : State) : Host.Outcome State Fault Refusal := perform (ignoredPrefix 0x89) s

/-- `(FD ignored) ADC A,D` (rule R173). -/
def execFdIgnored_ADC_A_D (s : State) : Host.Outcome State Fault Refusal := perform (ignoredPrefix 0x8A) s

/-- `(FD ignored) ADC A,E` (rule R173). -/
def execFdIgnored_ADC_A_E (s : State) : Host.Outcome State Fault Refusal := perform (ignoredPrefix 0x8B) s

/-- `(FD ignored) ADC A,A` (rule R173). -/
def execFdIgnored_ADC_A_A (s : State) : Host.Outcome State Fault Refusal := perform (ignoredPrefix 0x8F) s

/-- `(FD ignored) SUB B` (rule R173). -/
def execFdIgnored_SUB_B (s : State) : Host.Outcome State Fault Refusal := perform (ignoredPrefix 0x90) s

/-- `(FD ignored) SUB C` (rule R173). -/
def execFdIgnored_SUB_C (s : State) : Host.Outcome State Fault Refusal := perform (ignoredPrefix 0x91) s

/-- `(FD ignored) SUB D` (rule R173). -/
def execFdIgnored_SUB_D (s : State) : Host.Outcome State Fault Refusal := perform (ignoredPrefix 0x92) s

/-- `(FD ignored) SUB E` (rule R173). -/
def execFdIgnored_SUB_E (s : State) : Host.Outcome State Fault Refusal := perform (ignoredPrefix 0x93) s

/-- `(FD ignored) SUB A` (rule R173). -/
def execFdIgnored_SUB_A (s : State) : Host.Outcome State Fault Refusal := perform (ignoredPrefix 0x97) s

/-- `(FD ignored) SBC A,B` (rule R173). -/
def execFdIgnored_SBC_A_B (s : State) : Host.Outcome State Fault Refusal := perform (ignoredPrefix 0x98) s

/-- `(FD ignored) SBC A,C` (rule R173). -/
def execFdIgnored_SBC_A_C (s : State) : Host.Outcome State Fault Refusal := perform (ignoredPrefix 0x99) s

/-- `(FD ignored) SBC A,D` (rule R173). -/
def execFdIgnored_SBC_A_D (s : State) : Host.Outcome State Fault Refusal := perform (ignoredPrefix 0x9A) s

/-- `(FD ignored) SBC A,E` (rule R173). -/
def execFdIgnored_SBC_A_E (s : State) : Host.Outcome State Fault Refusal := perform (ignoredPrefix 0x9B) s

/-- `(FD ignored) SBC A,A` (rule R173). -/
def execFdIgnored_SBC_A_A (s : State) : Host.Outcome State Fault Refusal := perform (ignoredPrefix 0x9F) s

/-- `(FD ignored) AND B` (rule R173). -/
def execFdIgnored_AND_B (s : State) : Host.Outcome State Fault Refusal := perform (ignoredPrefix 0xA0) s

/-- `(FD ignored) AND C` (rule R173). -/
def execFdIgnored_AND_C (s : State) : Host.Outcome State Fault Refusal := perform (ignoredPrefix 0xA1) s

/-- `(FD ignored) AND D` (rule R173). -/
def execFdIgnored_AND_D (s : State) : Host.Outcome State Fault Refusal := perform (ignoredPrefix 0xA2) s

/-- `(FD ignored) AND E` (rule R173). -/
def execFdIgnored_AND_E (s : State) : Host.Outcome State Fault Refusal := perform (ignoredPrefix 0xA3) s

/-- `(FD ignored) AND A` (rule R173). -/
def execFdIgnored_AND_A (s : State) : Host.Outcome State Fault Refusal := perform (ignoredPrefix 0xA7) s

/-- `(FD ignored) XOR B` (rule R173). -/
def execFdIgnored_XOR_B (s : State) : Host.Outcome State Fault Refusal := perform (ignoredPrefix 0xA8) s

/-- `(FD ignored) XOR C` (rule R173). -/
def execFdIgnored_XOR_C (s : State) : Host.Outcome State Fault Refusal := perform (ignoredPrefix 0xA9) s

/-- `(FD ignored) XOR D` (rule R173). -/
def execFdIgnored_XOR_D (s : State) : Host.Outcome State Fault Refusal := perform (ignoredPrefix 0xAA) s

/-- `(FD ignored) XOR E` (rule R173). -/
def execFdIgnored_XOR_E (s : State) : Host.Outcome State Fault Refusal := perform (ignoredPrefix 0xAB) s

/-- `(FD ignored) XOR A` (rule R173). -/
def execFdIgnored_XOR_A (s : State) : Host.Outcome State Fault Refusal := perform (ignoredPrefix 0xAF) s

/-- `(FD ignored) OR B` (rule R173). -/
def execFdIgnored_OR_B (s : State) : Host.Outcome State Fault Refusal := perform (ignoredPrefix 0xB0) s

/-- `(FD ignored) OR C` (rule R173). -/
def execFdIgnored_OR_C (s : State) : Host.Outcome State Fault Refusal := perform (ignoredPrefix 0xB1) s

/-- `(FD ignored) OR D` (rule R173). -/
def execFdIgnored_OR_D (s : State) : Host.Outcome State Fault Refusal := perform (ignoredPrefix 0xB2) s

/-- `(FD ignored) OR E` (rule R173). -/
def execFdIgnored_OR_E (s : State) : Host.Outcome State Fault Refusal := perform (ignoredPrefix 0xB3) s

/-- `(FD ignored) OR A` (rule R173). -/
def execFdIgnored_OR_A (s : State) : Host.Outcome State Fault Refusal := perform (ignoredPrefix 0xB7) s

/-- `(FD ignored) CP B` (rule R173). -/
def execFdIgnored_CP_B (s : State) : Host.Outcome State Fault Refusal := perform (ignoredPrefix 0xB8) s

/-- `(FD ignored) CP C` (rule R173). -/
def execFdIgnored_CP_C (s : State) : Host.Outcome State Fault Refusal := perform (ignoredPrefix 0xB9) s

/-- `(FD ignored) CP D` (rule R173). -/
def execFdIgnored_CP_D (s : State) : Host.Outcome State Fault Refusal := perform (ignoredPrefix 0xBA) s

/-- `(FD ignored) CP E` (rule R173). -/
def execFdIgnored_CP_E (s : State) : Host.Outcome State Fault Refusal := perform (ignoredPrefix 0xBB) s

/-- `(FD ignored) CP A` (rule R173). -/
def execFdIgnored_CP_A (s : State) : Host.Outcome State Fault Refusal := perform (ignoredPrefix 0xBF) s

/-- `(FD ignored) RET NZ` (rule R173). -/
def execFdIgnored_RET_NZ (s : State) : Host.Outcome State Fault Refusal := perform (ignoredPrefix 0xC0) s

/-- `(FD ignored) POP BC` (rule R173). -/
def execFdIgnored_POP_BC (s : State) : Host.Outcome State Fault Refusal := perform (ignoredPrefix 0xC1) s

/-- `(FD ignored) JP NZ,nn` (rule R173). -/
def execFdIgnored_JP_NZ_nn (s : State) : Host.Outcome State Fault Refusal := perform (ignoredPrefix 0xC2) s

/-- `(FD ignored) JP nn` (rule R173). -/
def execFdIgnored_JP_nn (s : State) : Host.Outcome State Fault Refusal := perform (ignoredPrefix 0xC3) s

/-- `(FD ignored) CALL NZ,nn` (rule R173). -/
def execFdIgnored_CALL_NZ_nn (s : State) : Host.Outcome State Fault Refusal := perform (ignoredPrefix 0xC4) s

/-- `(FD ignored) PUSH BC` (rule R173). -/
def execFdIgnored_PUSH_BC (s : State) : Host.Outcome State Fault Refusal := perform (ignoredPrefix 0xC5) s

/-- `(FD ignored) ADD A,n` (rule R173). -/
def execFdIgnored_ADD_A_n (s : State) : Host.Outcome State Fault Refusal := perform (ignoredPrefix 0xC6) s

/-- `(FD ignored) RST 00H` (rule R173). -/
def execFdIgnored_RST_00H (s : State) : Host.Outcome State Fault Refusal := perform (ignoredPrefix 0xC7) s

/-- `(FD ignored) RET Z` (rule R173). -/
def execFdIgnored_RET_Z (s : State) : Host.Outcome State Fault Refusal := perform (ignoredPrefix 0xC8) s

/-- `(FD ignored) RET` (rule R173). -/
def execFdIgnored_RET (s : State) : Host.Outcome State Fault Refusal := perform (ignoredPrefix 0xC9) s

/-- `(FD ignored) JP Z,nn` (rule R173). -/
def execFdIgnored_JP_Z_nn (s : State) : Host.Outcome State Fault Refusal := perform (ignoredPrefix 0xCA) s

/-- `(FD ignored) CALL Z,nn` (rule R173). -/
def execFdIgnored_CALL_Z_nn (s : State) : Host.Outcome State Fault Refusal := perform (ignoredPrefix 0xCC) s

/-- `(FD ignored) CALL nn` (rule R173). -/
def execFdIgnored_CALL_nn (s : State) : Host.Outcome State Fault Refusal := perform (ignoredPrefix 0xCD) s

/-- `(FD ignored) ADC A,n` (rule R173). -/
def execFdIgnored_ADC_A_n (s : State) : Host.Outcome State Fault Refusal := perform (ignoredPrefix 0xCE) s

/-- `(FD ignored) RST 08H` (rule R173). -/
def execFdIgnored_RST_08H (s : State) : Host.Outcome State Fault Refusal := perform (ignoredPrefix 0xCF) s

/-- `(FD ignored) RET NC` (rule R173). -/
def execFdIgnored_RET_NC (s : State) : Host.Outcome State Fault Refusal := perform (ignoredPrefix 0xD0) s

/-- `(FD ignored) POP DE` (rule R173). -/
def execFdIgnored_POP_DE (s : State) : Host.Outcome State Fault Refusal := perform (ignoredPrefix 0xD1) s

/-- `(FD ignored) JP NC,nn` (rule R173). -/
def execFdIgnored_JP_NC_nn (s : State) : Host.Outcome State Fault Refusal := perform (ignoredPrefix 0xD2) s

/-- `(FD ignored) OUT (n),A` (rule R173). -/
def execFdIgnored_OUT_atn_A (s : State) : Host.Outcome State Fault Refusal := perform (ignoredPrefix 0xD3) s

/-- `(FD ignored) CALL NC,nn` (rule R173). -/
def execFdIgnored_CALL_NC_nn (s : State) : Host.Outcome State Fault Refusal := perform (ignoredPrefix 0xD4) s

/-- `(FD ignored) PUSH DE` (rule R173). -/
def execFdIgnored_PUSH_DE (s : State) : Host.Outcome State Fault Refusal := perform (ignoredPrefix 0xD5) s

/-- `(FD ignored) SUB n` (rule R173). -/
def execFdIgnored_SUB_n (s : State) : Host.Outcome State Fault Refusal := perform (ignoredPrefix 0xD6) s

/-- `(FD ignored) RST 10H` (rule R173). -/
def execFdIgnored_RST_10H (s : State) : Host.Outcome State Fault Refusal := perform (ignoredPrefix 0xD7) s

/-- `(FD ignored) RET C` (rule R173). -/
def execFdIgnored_RET_C (s : State) : Host.Outcome State Fault Refusal := perform (ignoredPrefix 0xD8) s

/-- `(FD ignored) EXX` (rule R173). -/
def execFdIgnored_EXX (s : State) : Host.Outcome State Fault Refusal := perform (ignoredPrefix 0xD9) s

/-- `(FD ignored) JP C,nn` (rule R173). -/
def execFdIgnored_JP_C_nn (s : State) : Host.Outcome State Fault Refusal := perform (ignoredPrefix 0xDA) s

/-- `(FD ignored) IN A,(n)` (rule R173). -/
def execFdIgnored_IN_A_atn (s : State) : Host.Outcome State Fault Refusal := perform (ignoredPrefix 0xDB) s

/-- `(FD ignored) CALL C,nn` (rule R173). -/
def execFdIgnored_CALL_C_nn (s : State) : Host.Outcome State Fault Refusal := perform (ignoredPrefix 0xDC) s

/-- `(FD ignored) prefix DD` (rule R173). -/
def execFdIgnored_prefix_DD (s : State) : Host.Outcome State Fault Refusal := perform (ignoredPrefix 0xDD) s

/-- `(FD ignored) SBC A,n` (rule R173). -/
def execFdIgnored_SBC_A_n (s : State) : Host.Outcome State Fault Refusal := perform (ignoredPrefix 0xDE) s

/-- `(FD ignored) RST 18H` (rule R173). -/
def execFdIgnored_RST_18H (s : State) : Host.Outcome State Fault Refusal := perform (ignoredPrefix 0xDF) s

/-- `(FD ignored) RET PO` (rule R173). -/
def execFdIgnored_RET_PO (s : State) : Host.Outcome State Fault Refusal := perform (ignoredPrefix 0xE0) s

/-- `(FD ignored) JP PO,nn` (rule R173). -/
def execFdIgnored_JP_PO_nn (s : State) : Host.Outcome State Fault Refusal := perform (ignoredPrefix 0xE2) s

/-- `(FD ignored) CALL PO,nn` (rule R173). -/
def execFdIgnored_CALL_PO_nn (s : State) : Host.Outcome State Fault Refusal := perform (ignoredPrefix 0xE4) s

/-- `(FD ignored) AND n` (rule R173). -/
def execFdIgnored_AND_n (s : State) : Host.Outcome State Fault Refusal := perform (ignoredPrefix 0xE6) s

/-- `(FD ignored) RST 20H` (rule R173). -/
def execFdIgnored_RST_20H (s : State) : Host.Outcome State Fault Refusal := perform (ignoredPrefix 0xE7) s

/-- `(FD ignored) RET PE` (rule R173). -/
def execFdIgnored_RET_PE (s : State) : Host.Outcome State Fault Refusal := perform (ignoredPrefix 0xE8) s

/-- `(FD ignored) JP PE,nn` (rule R173). -/
def execFdIgnored_JP_PE_nn (s : State) : Host.Outcome State Fault Refusal := perform (ignoredPrefix 0xEA) s

/-- `(FD ignored) EX DE,HL` (rule R173). -/
def execFdIgnored_EX_DE_HL (s : State) : Host.Outcome State Fault Refusal := perform (ignoredPrefix 0xEB) s

/-- `(FD ignored) CALL PE,nn` (rule R173). -/
def execFdIgnored_CALL_PE_nn (s : State) : Host.Outcome State Fault Refusal := perform (ignoredPrefix 0xEC) s

/-- `(FD ignored) ED page` (rule R173). -/
def execFdIgnored_ED_page (s : State) : Host.Outcome State Fault Refusal := perform (ignoredPrefix 0xED) s

/-- `(FD ignored) XOR n` (rule R173). -/
def execFdIgnored_XOR_n (s : State) : Host.Outcome State Fault Refusal := perform (ignoredPrefix 0xEE) s

/-- `(FD ignored) RST 28H` (rule R173). -/
def execFdIgnored_RST_28H (s : State) : Host.Outcome State Fault Refusal := perform (ignoredPrefix 0xEF) s

/-- `(FD ignored) RET P` (rule R173). -/
def execFdIgnored_RET_P (s : State) : Host.Outcome State Fault Refusal := perform (ignoredPrefix 0xF0) s

/-- `(FD ignored) POP AF` (rule R173). -/
def execFdIgnored_POP_AF (s : State) : Host.Outcome State Fault Refusal := perform (ignoredPrefix 0xF1) s

/-- `(FD ignored) JP P,nn` (rule R173). -/
def execFdIgnored_JP_P_nn (s : State) : Host.Outcome State Fault Refusal := perform (ignoredPrefix 0xF2) s

/-- `(FD ignored) DI` (rule R173). -/
def execFdIgnored_DI (s : State) : Host.Outcome State Fault Refusal := perform (ignoredPrefix 0xF3) s

/-- `(FD ignored) CALL P,nn` (rule R173). -/
def execFdIgnored_CALL_P_nn (s : State) : Host.Outcome State Fault Refusal := perform (ignoredPrefix 0xF4) s

/-- `(FD ignored) PUSH AF` (rule R173). -/
def execFdIgnored_PUSH_AF (s : State) : Host.Outcome State Fault Refusal := perform (ignoredPrefix 0xF5) s

/-- `(FD ignored) OR n` (rule R173). -/
def execFdIgnored_OR_n (s : State) : Host.Outcome State Fault Refusal := perform (ignoredPrefix 0xF6) s

/-- `(FD ignored) RST 30H` (rule R173). -/
def execFdIgnored_RST_30H (s : State) : Host.Outcome State Fault Refusal := perform (ignoredPrefix 0xF7) s

/-- `(FD ignored) RET M` (rule R173). -/
def execFdIgnored_RET_M (s : State) : Host.Outcome State Fault Refusal := perform (ignoredPrefix 0xF8) s

/-- `(FD ignored) JP M,nn` (rule R173). -/
def execFdIgnored_JP_M_nn (s : State) : Host.Outcome State Fault Refusal := perform (ignoredPrefix 0xFA) s

/-- `(FD ignored) EI` (rule R173). -/
def execFdIgnored_EI (s : State) : Host.Outcome State Fault Refusal := perform (ignoredPrefix 0xFB) s

/-- `(FD ignored) CALL M,nn` (rule R173). -/
def execFdIgnored_CALL_M_nn (s : State) : Host.Outcome State Fault Refusal := perform (ignoredPrefix 0xFC) s

/-- `(FD ignored) prefix FD` (rule R173). -/
def execFdIgnored_prefix_FD (s : State) : Host.Outcome State Fault Refusal := perform (ignoredPrefix 0xFD) s

/-- `(FD ignored) CP n` (rule R173). -/
def execFdIgnored_CP_n (s : State) : Host.Outcome State Fault Refusal := perform (ignoredPrefix 0xFE) s

/-- `(FD ignored) RST 38H` (rule R173). -/
def execFdIgnored_RST_38H (s : State) : Host.Outcome State Fault Refusal := perform (ignoredPrefix 0xFF) s

end Sys2Proof.Machine
end

