-- ==== Sys2Proof/Machine/Engine.lean ====
section
/-! DEFINITION. `CpuCore::run` (35_engine.md): fetching the bytes of an instruction, executing it, the halted step and the
boundary step. -/

namespace Sys2Proof.Machine

/-! ## Fetching (rules R220 to R223, 30_encoding.md rule R163) -/

/-- The operand bytes of a row that is not a prefix, each by its own cycle. -/
def fetchRow {α : Type} (r : Row α) : M α :=
  match r with
  | .plain i => return i
  | .dropped i => return i
  | .page _ => M.fault .noTableRow
  | .imm8 f => do return f (← imm8)
  | .late8 f => do
    internal (← theRegs).ir 1
    return f (← imm8)
  | .imm16 f => do return f (← imm16)
  | .imm8x2 f => do
    let d ← imm8
    let n ← imm8
    return f d n

/-- The displacement and the opcode byte of the XCB format, both `MR` cycles (rule R222). -/
def fetchXcb {α : Type} (tb : Tables α) (i : XY) : M α := do
  let d ← imm8
  let op ← imm8
  match tb.xcb i op with
  | some f => return f d
  | none => M.fault .noTableRow

/-- The byte after a prefix, an `M1` cycle, and what follows it. -/
def fetchPage {α : Type} (tb : Tables α) (p : Page) : M α := do
  let op ← fetchOp
  match tb.page p op with
  | none => M.fault .noTableRow
  | some (.page (.xcb i)) => fetchXcb tb i
  | some r => fetchRow r

/-- `Dispatch` with the byte in hand (rule R220). -/
def fetchFrom {α : Type} (tb : Tables α) (b : Byte) : M α :=
  match tb.main b with
  | none => M.fault .noTableRow
  | some (.page p) => fetchPage tb p
  | some r => fetchRow r

/-! ## Executing -/

/-- A meaning as an action. -/
def ofOutcome (f : State → Host.Outcome State Fault Refusal) : M Unit := fun s =>
  match f s with
  | .next t => .ok () t
  | .fault r => .error (.fault r) s
  | .refused r => .error (.refused r) s

/-- Whether an instruction is `EI` (rule R220: `ExecuteOne` returns true only for it). -/
def isEiForm : Form → Bool
  | .ei => true
  | _ => false

/-- `StackCheck()` (rule R205). -/
def stackCheck : M Unit := do
  let s ← get
  match s.stackBreak with
  | some v =>
    if s.mode.brk && decide (v.toNat < s.regs.sp.toNat) then
      set { s with stackBreak := none }
      latchExit (.stackBreakpoint s.regs.sp)
    else return ()
  | none => return ()

/-- What follows an executed instruction: `ic`, `int_block`, `exec_bp_skip` and the stack check (rule R202 step 8). -/
def completeInstr (wasEi : Bool) : M Unit := do
  let s ← get
  if 4294967295 < s.ic + 1 then M.fault .instructionCounterOverflow
  else
    set { s with ic := s.ic + 1, regs := { s.regs with intBlock := wasEi }, execBpSkip := none }
    stackCheck

/-- Fetches the rest of the instruction whose first byte is in hand and executes it. After a discarded prefix the
instruction is not complete. -/
def executeWith {α : Type} (tb : Tables α) (run : α → M Unit) (isEi : α → Bool) (b : Byte) : M Unit := do
  let i ← fetchFrom tb b
  run i
  if (← get).latch.isNone then completeInstr (isEi i)

/-- `Dispatch` on the instruction set: the instruction fetched is executed by its meaning. -/
noncomputable def execute (b : Byte) : M Unit :=
  executeWith instrTables (fun i => ofOutcome (exec i)) (fun i => isEiForm i.form) b

/-- The halted step (44_control.md rule R450). -/
def haltedStep : M Unit := do
  let _ ← m1 (← theRegs).pc
  completeInstr false

/-! ## The boundary step (rule R202) -/

/-- Whether the exec breakpoint of the instruction at PC fires (rule R204). Looking at the cell is not a bus cycle. -/
def execBreakHit : M Bool := do
  let s ← get
  if !s.regs.halted && s.mode.brk && s.execBpSkip != some s.regs.pc then
    let m ← active s.regs.pc
    let cell ← cellAt (m.read.at s.cfg s.regs.pc)
    return cell.flags.breakExec
  else return false

/-- `exec_bp_skip <- none` after an interrupt entry, and the stack check (rule R202 steps 5 and 6). -/
def completeEntry : M Unit := do
  stackCheck
  modify fun s => { s with execBpSkip := none }

/-- Steps 5 to 8 of the boundary step. `ex` executes the instruction whose first byte it is given. -/
def boundaryAct (ex : Byte → M Unit) : M (Option ExitReason) := do
  let s ← get
  if s.regs.nmiPending then
    acceptNmi
    completeEntry
    return none
  else if s.regs.iff1 && !s.regs.intBlock && s.cfg.intLineAt s.cc then
    acceptInt
    completeEntry
    return none
  else if ← execBreakHit then
    set { s with execBpSkip := some s.regs.pc }
    return some (.execBreakpoint s.regs.pc)
  else if s.regs.halted then
    haltedStep
    return none
  else
    let op ← fetchOp
    ex op
    return none

/-- The boundary step: an exit reason ends the run. -/
def boundaryStep (ex : Byte → M Unit) : M (Option ExitReason) := do
  let s ← get
  match s.pendingExit with
  | some e =>
    set { s with pendingExit := none }
    return some e
  | none =>
    if s.replayMode = .outOfSync then return some .outOfSync
    else if s.targetCc ≤ s.cc then return some .cycleLimitReached
    else if s.targetIc ≤ s.ic then return some .instructionLimitReached
    else boundaryAct ex

/-- One step of a run: the boundary step, or the rest of an instruction after a discarded prefix, where no boundary falls
(rule R221). -/
def runStep (ex : Byte → M Unit) : M (Option ExitReason) := do
  let s ← get
  match s.latch with
  | some op =>
    set { s with latch := none }
    ex op
    return none
  | none => boundaryStep ex

end Sys2Proof.Machine
end

