-- ==== Sys2Proof/Machine/ByForm.lean ====
section
/-! DEFINITION. The same meanings by rule and operand form: `runForm` is one line per rule of 41_load.md to 49_io.md, and
`exec_eq_runForm` says that every arm of `exec` is the line of its form. `execute_eq_executeForm` says the same of
fetching and executing. Compiled code runs through the forms: more constructors carry fields than it can tag. -/

namespace Sys2Proof.Machine

/-- The mode `im[y]` sets (30_encoding.md rule R166). -/
def imMode (y : Fin 8) : IntMode :=
  match y.val % 4 with
  | 0 => .im0
  | 1 => Config.im01Mode
  | 2 => .im1
  | _ => .im2

/-- The operation a form is. -/
def runForm : Form → M Unit
  | .ldRR y z => ld8 y.reg (.reg z.reg)
  | .ldRN y n => ld8 y.reg (.imm n)
  | .ldRHL y => ld8 y.reg .atHL
  | .ldHLR z => st8 .atHL z.reg
  | .ldHLN n => stHLImm n
  | .ldAAt p => ldAAt p
  | .ldANn nn => ldANn nn
  | .ldAtA p => stAAt p
  | .ldNnA nn => stANn nn
  | .ldAI => ldAI
  | .ldAR => ldAR
  | .ldIA => ldIA
  | .ldRA => ldRA
  | .ldRIdx i y d => ld8 y.reg (.atIdx i d)
  | .ldIdxR i z d => st8 (.atIdx i d) z.reg
  | .ldIdxN i d n => stIdxImm i d n
  | .ldXX i y z => ld8 (y.sub i) (.reg (z.sub i))
  | .ldXN i y n => ld8 (y.sub i) (.imm n)
  | .ldRpNn p nn => ld16Imm p.reg nn
  | .ldXyNn i nn => ld16Imm i.reg nn
  | .ldHLAtNn nn => ld16Nn .hl nn
  | .ldXyAtNn i nn => ld16Nn i.reg nn
  | .ldRpAtNn p nn => ld16Nn p.reg nn
  | .ldNnHL nn => st16Nn nn .hl
  | .ldNnXy i nn => st16Nn nn i.reg
  | .ldNnRp p nn => st16Nn nn p.reg
  | .ldSpHL => ldSp .hl
  | .ldSpXy i => ldSp i.reg
  | .push p => push p.reg
  | .pushXy i => push i.reg
  | .pop p => pop p.reg
  | .popXy i => pop i.reg
  | .exAF => exAF
  | .exDEHL => exDEHL
  | .exx => exx
  | .exSpHL => exSp .hl
  | .exSpXy i => exSp i.reg
  | .ldBlock dir rep => ldBlock dir rep
  | .cpBlock dir rep => cpBlock dir rep
  | .aluR op z => alu op (.reg z.reg)
  | .aluN op n => alu op (.imm n)
  | .aluHL op => alu op .atHL
  | .aluIdx op i d => alu op (.atIdx i d)
  | .aluX op i z => alu op (.reg (z.sub i))
  | .incR y => incReg y.reg
  | .incHL => incMem .atHL
  | .incIdx i d => incMem (.atIdx i d)
  | .incX i y => incReg (y.sub i)
  | .decR y => decReg y.reg
  | .decHL => decMem .atHL
  | .decIdx i d => decMem (.atIdx i d)
  | .decX i y => decReg (y.sub i)
  | .daa => daa
  | .cpl => cpl
  | .neg _ => neg
  | .ccf => ccf
  | .scf => scf
  | .nop => nop
  | .edNop _ => edNop
  | .halt => halt
  | .di => di
  | .ei => ei
  | .im y => setIm (imMode y)
  | .addHL p => add16 .hl p.reg
  | .addXy i p => add16 i.reg (p.sub i)
  | .adcHL p => adc16 p.reg
  | .sbcHL p => sbc16 p.reg
  | .incRp p => inc16 p.reg
  | .incXy i => inc16 i.reg
  | .decRp p => dec16 p.reg
  | .decXy i => dec16 i.reg
  | .rlca => accRotate .rlc
  | .rrca => accRotate .rrc
  | .rla => accRotate .rl
  | .rra => accRotate .rr
  | .rotR op z => rotReg op z.reg
  | .rotHL op => rotMem op .atHL none
  | .rotIdx op i d copy => rotMem op (.atIdx i d) copy
  | .rld => rld
  | .rrd => rrd
  | .bitR b z => bitReg b z.reg
  | .bitHL b => bitHL b
  | .bitIdx b i d _ => bitIdx b i d
  | .resR b z => resReg b z.reg
  | .resHL b => resMem b .atHL none
  | .resIdx b i d copy => resMem b (.atIdx i d) copy
  | .setR b z => setReg b z.reg
  | .setHL b => setMem b .atHL none
  | .setIdx b i d copy => setMem b (.atIdx i d) copy
  | .jpNn nn => jp nn
  | .jpCc y nn => jpCc y nn
  | .jr e => jr e
  | .jrCc y e => jrCc y e
  | .djnz e => djnz e
  | .jpHL => jpReg .hl
  | .jpXy i => jpReg i.reg
  | .callNn nn => call nn
  | .callCc y nn => callCc y nn
  | .ret => ret
  | .retCc y => retCc y
  | .reti => retInt
  | .retn _ => retInt
  | .rst y => rst y
  | .inAN n => inAN n
  | .inRC y => inRC y.reg
  | .inFC => inFC
  | .outNA n => outNA n
  | .outCR y => outCR y.reg
  | .outC0 => outC0
  | .inBlock dir rep => inBlock dir rep
  | .outBlock dir rep => outBlock dir rep
  | .ignored _ op => ignoredPrefix op

-- One goal per constructor of `Instr`, more than the default limit allows.
set_option maxHeartbeats 4000000 in
/-- Every meaning is the operation of its form. -/
theorem exec_eq_runForm (i : Instr) (s : State) : exec i s = perform (runForm i.form) s := by
  cases i <;> first
    | rfl
    | (rename_i m; cases m <;> rfl)

/-! ## The decoding tables by form -/

/-- A row with its result changed. -/
def mapRow {α β : Type} (f : α → β) : Row α → Row β
  | .plain i => .plain (f i)
  | .imm8 g => .imm8 fun n => f (g n)
  | .late8 g => .late8 fun n => f (g n)
  | .imm16 g => .imm16 fun n => f (g n)
  | .imm8x2 g => .imm8x2 fun d n => f (g d n)
  | .dropped i => .dropped (f i)
  | .page p => .page p

/-- Every byte, in order. -/
def allBytes : List Byte := (List.range 256).map fun n => BitVec.ofNat 8 n

theorem lookup_of_map {α β : Type} {l : List α} {f : α → β} {g : Byte → β} (h : l.map f = allBytes.map g) (b : Byte) :
    (l[b.toNat]?).map f = some (g b) := by
  have hb : (allBytes.map g)[b.toNat]? = some (g b) := by
    have : b.toNat < 256 := b.isLt
    simp [allBytes, List.getElem?_range this]
  rw [← hb, ← h, List.getElem?_map]

set_option maxRecDepth 40000 in
theorem mainPage_eq : mainPage.map (mapRow Instr.form) = allBytes.map mainForm := by rfl

set_option maxRecDepth 40000 in
theorem cbPage_eq : cbPage.map (mapRow Instr.form) = allBytes.map cbForm := by rfl

set_option maxRecDepth 40000 in
theorem edPage_eq : edPage.map (mapRow Instr.form) = allBytes.map edForm := by rfl

set_option maxRecDepth 40000 in
theorem ixPage_eq : ixPage.map (mapRow Instr.form) = allBytes.map (indexForm .ix) := by rfl

set_option maxRecDepth 40000 in
theorem iyPage_eq : iyPage.map (mapRow Instr.form) = allBytes.map (indexForm .iy) := by rfl

set_option maxRecDepth 40000 in
theorem ixcbPage_eq : ixcbPage.map (fun f d => (f d).form) = allBytes.map (xcbForm .ix) := by rfl

set_option maxRecDepth 40000 in
theorem iycbPage_eq : iycbPage.map (fun f d => (f d).form) = allBytes.map (xcbForm .iy) := by rfl

/-- The opcode tables give the forms of the field formulas. -/
structure FormsOf (tb : Tables Instr) (tf : Tables Form) : Prop where
  main : ∀ b, tf.main b = (tb.main b).map (mapRow Instr.form)
  page : ∀ p b, tf.page p b = (tb.page p b).map (mapRow Instr.form)
  xcb : ∀ i b, tf.xcb i b = (tb.xcb i b).map fun f d => (f d).form

theorem formTables_eq : FormsOf instrTables formTables where
  main b := (lookup_of_map mainPage_eq b).symm
  page p b := match p with
    | .cb => (lookup_of_map cbPage_eq b).symm
    | .ed => (lookup_of_map edPage_eq b).symm
    | .index .ix => (lookup_of_map ixPage_eq b).symm
    | .index .iy => (lookup_of_map iyPage_eq b).symm
    | .xcb _ => rfl
  xcb i b := match i with
    | .ix => (lookup_of_map ixcbPage_eq b).symm
    | .iy => (lookup_of_map iycbPage_eq b).symm

/-! ## Fetching and executing by form -/

theorem fetchRow_map {α β : Type} (f : α → β) (r : Row α) : fetchRow (mapRow f r) = f <$> fetchRow r := by
  cases r with
  | page p => rfl
  | _ => simp [mapRow, fetchRow]

theorem fetchXcb_form {tb : Tables Instr} {tf : Tables Form} (h : FormsOf tb tf) (i : XY) :
    fetchXcb tf i = Instr.form <$> fetchXcb tb i := by
  simp only [fetchXcb, map_bind]
  refine bind_congr fun d => bind_congr fun op => ?_
  rw [h.xcb]
  cases tb.xcb i op <;> rfl

theorem fetchPage_form {tb : Tables Instr} {tf : Tables Form} (h : FormsOf tb tf) (p : Page) :
    fetchPage tf p = Instr.form <$> fetchPage tb p := by
  simp only [fetchPage, map_bind]
  refine bind_congr fun op => ?_
  rw [h.page]
  cases tb.page p op with
  | none => rfl
  | some r =>
    cases r with
    | page q => cases q with
      | xcb i => exact fetchXcb_form h i
      | _ => rfl
    | _ => exact fetchRow_map _ _

theorem fetchFrom_form {tb : Tables Instr} {tf : Tables Form} (h : FormsOf tb tf) (b : Byte) :
    fetchFrom tf b = Instr.form <$> fetchFrom tb b := by
  simp only [fetchFrom]
  rw [h.main]
  cases tb.main b with
  | none => rfl
  | some r =>
    cases r with
    | page p => exact fetchPage_form h p
    | _ => exact fetchRow_map _ _

/-- Fetching and executing by form. -/
def executeForm (b : Byte) : M Unit :=
  executeWith formTables (fun f => ofOutcome (perform (runForm f))) isEiForm b

theorem execute_eq_executeForm : execute = executeForm := by
  funext b
  have h (i : Instr) : exec i = perform (runForm i.form) := funext fun s => exec_eq_runForm i s
  simp only [execute, executeForm, executeWith, fetchFrom_form formTables_eq, bind_map_left, h]

end Sys2Proof.Machine
end

