-- ==== Sys2Proof/Machine/Replay.lean ====
section
/-! DEFINITION. Snapshots (70_reset_and_hazards.md rules R753 and R754) and ReplaySync at a flyback (55_scheduler_replay.md
rules R666 and R667). -/

namespace Sys2Proof.Machine

/-! ## Snapshots -/

def Block.snap (b : Block) : BlockSnap := { id := b.id, len := b.len, data := b.data }

def Link.snap (l : Link) : LinkSnap :=
  { dev := l.dev, want := l.want, hidden := l.hidden, maps := l.maps, ovl := l.ovl }

/-- `Save()` (rule R754). -/
def State.save (s : State) : Snapshot where
  regs := s.regs
  cc := s.cc
  ic := s.ic
  cpf := s.cpf
  blocks := s.mem.map Block.snap
  links := s.chain.map Link.snap
  pages := s.pages

/-- `SameState(snap)` (rule R667): the device state is not compared. Where the machine's blocks are not those of the snapshot,
because the host has created, freed or resized one since, the states differ: the rule compares "every Cell's data" and does
not say which Cells those then are (DESIGN CHOICE, notes/assumptions/28.md). The run arguments of rule R44 are no part of it
(notes/assumptions/8.md). -/
def State.same (s : State) (snap : Snapshot) : Bool :=
  decide (s.regs = snap.regs) && decide (s.cc = snap.cc) && decide (s.ic = snap.ic) && decide (s.cpf = snap.cpf) &&
    decide (s.mem.map Block.snap = snap.blocks)

/-- The frame geometry check (55_scheduler_replay.md rule R653). -/
def Cfg.geometryOk (c : Cfg) (r : Int) : Bool :=
  decide (1 ≤ r) && decide (0 ≤ c.cwStart) && decide (c.cwStart ≤ c.cwEnd) && decide (c.cwEnd ≤ r)

/-- A value of the i32 range. -/
def inI32 (v : Int) : Bool := decide (-2147483648 ≤ v) && decide (v ≤ 2147483647)

/-- A block with the data of its snapshot: the flags are kept. -/
def Block.load (b : Block) (d : BlockSnap) : Block := { b with data := d.data }

/-- A link with the device configuration of its snapshot: the handlers and patterns are kept. -/
def Link.load (l : Link) (d : LinkSnap) : Link :=
  { l with dev := d.dev, want := d.want, hidden := d.hidden, maps := d.maps, ovl := d.ovl }

/-- The checks of `Load` (rule R753): the snapshot has the machine's blocks and links, its values are in the ranges of
their types, and the new state is well-formed, with `L[0]` wanting (10_state.md rule R60) and the `hidden` signals those of
the `want` signals (50_bus.md rule R624). -/
def State.loadOk (s : State) (snap : Snapshot) : Bool :=
  decide (snap.blocks.map (fun b => (b.id, b.len)) = s.mem.map fun b => (b.id, b.len)) &&
    snap.blocks.all (fun b => sparseWf unlistedByte b.len 0 b.data) &&
    decide (snap.links.length = s.chain.length) && s.chain.all (fun l => !Link.badPattern l) &&
    headWants (List.zipWith Link.load s.chain snap.links) && pagingOk (List.zipWith Link.load s.chain snap.links) &&
    snap.pages.ok s.cfg s.mem && s.cfg.geometryOk snap.cpf && inI32 snap.cc && decide (snap.ic < 4294967296)

/-- The state after a load that succeeds (rule R753). -/
def State.load (s : State) (snap : Snapshot) : State :=
  { s with
    regs := snap.regs
    cc := snap.cc
    ic := snap.ic
    cpf := snap.cpf
    mem := List.zipWith Block.load s.mem snap.blocks
    chain := List.zipWith Link.load s.chain snap.links
    pages := snap.pages
    nextHandle := max s.nextHandle snap.pages.freshHandle
    pendingExit := none
    execBpSkip := none }

/-! ## ReplaySync at a flyback -/

/-- Rule R666: closes the recorded frame and opens the next. -/
def State.closeFrame (s : State) (closeIc : Nat) (interval : Nat) : State :=
  let stream := s.stream ++ [{ length := closeIc, inputs := s.recBytes, snapshot := s.recSnap }]
  { s with
    stream := stream
    recBytes := []
    recSnap := if stream.length % interval = 0 then some s.save else none }

/-- Rule R667: moves playback to the next frame. -/
def State.nextFrame (s : State) : State :=
  let s := { s with frameIx := s.frameIx + 1, byteIx := 0 }
  if s.frameIx = s.stream.length then { s with replayMode := .endOfFile }
  else match s.stream[s.frameIx]?.bind (·.snapshot) with
    | some snap => if s.same snap then s else { s with replayMode := .outOfSync }
    | none => s

/-- `ReplayFlyback(close_ic)` (rules R666 and R667). -/
def replayFlyback (closeIc : Nat) : M Unit := modify fun s =>
  match s.replayMode with
  | .recording => s.closeFrame closeIc s.cfg.snapshotInterval
  | .playing => s.nextFrame
  | .idle => s
  | .endOfFile => s
  | .outOfSync => s

end Sys2Proof.Machine
end

