-- ==== Sys2Proof/Machine/Scheduler.lean ====
section
/-! DEFINITION. The Scheduler (55_scheduler_replay.md rules R640 to R653): regions, the loop, flyback and audio blocks. -/

namespace Sys2Proof.Machine

/-! ## Regions (rules R641 and R642) -/

/-- The regions of a frame. -/
inductive Region where
  | before
  | inside
  | after
  deriving DecidableEq, Repr

/-- `Region(cc)`. -/
def Cfg.region (c : Cfg) (cc : Int) : Region :=
  if cc < c.cwStart then .before else if cc < c.cwEnd then .inside else .after

/-- `cpf`, or `cpf + REPLAY_SLACK` while playing. -/
def State.frameBound (s : State) : Int :=
  if s.replayMode = .playing then s.cpf + s.cfg.replaySlack else s.cpf

/-- `RegionBound(cc)`. -/
def State.regionBound (s : State) : Int :=
  match s.cfg.region s.cc with
  | .before => s.cfg.cwStart
  | .inside => s.cfg.cwEnd
  | .after => s.frameBound

/-- `ModeFlags(region)` (rule R642): only the WAIT class differs. -/
def Region.mode (r : Region) : ModeFlags where
  wait := decide (r = .inside)
  brk := true
  patch := true
  mmio := true
  video := true
  log := true

/-! ## Flyback and audio blocks (rules R650, R651 and R653) -/

/-- `Flyback()`. -/
def flyback : M Unit := do
  let s ← get
  let r := s.cfg.frameFlyback s.cc
  callOut (.frameFlyback s.cc r)
  if !s.cfg.geometryOk r then M.refuse .badFrameGeometry
  lifecycle (·.frameEnd) fun dev => .frameEnd dev s.cc
  let closeIc := (← get).ic
  modify fun s =>
    { s with frameCount := s.frameCount + 1
             cc := s.cc - r
             target := s.target - r
             audioCc := s.audioCc - r
             ic := 0
             cpf := r }
  replayFlyback closeIc

/-- `AudioBlock()`: the audio collaborator first, then the devices. -/
def audioBlock : M Unit := do
  let s ← get
  let time := s.cfg.audioTimeAt s.audioCc
  callOut (.audioBlockEnd time)
  lifecycle (·.audioBlockEnd) fun dev => .audioBlockEnd dev time
  modify fun s => { s with audioCc := s.cfg.nextAudioCc s.audioCc }

/-! ## Runs (35_engine.md rule R200) and the loop (rule R643) -/

/-- The current operation answers the host, and the scheduler is suspended. -/
def answer (r : HostResult) : M Unit :=
  modify fun s => { s with results := s.results ++ [r], phase := .suspended }

/-- A sub-run returned `e` to its caller (rule R643 step 6). -/
def runReturned (byScheduler : Bool) (e : ExitReason) : M Unit :=
  if byScheduler then
    match e with
    | .cycleLimitReached => modify fun s => { s with phase := .scheduling }
    | .instructionLimitReached => modify fun s => { s with phase := .scheduling }
    | .outOfSync => modify fun s => { s with phase := .scheduling }
    | .readBreakpoint a => answer (.exit (.readBreakpoint a))
    | .writeBreakpoint a => answer (.exit (.writeBreakpoint a))
    | .execBreakpoint a => answer (.exit (.execBreakpoint a))
    | .stackBreakpoint sp => answer (.exit (.stackBreakpoint sp))
  else answer (.runReturned e)

/-- The call of `run`: it stores its arguments, and returns at once in `EndOfFile` and `OutOfSync`. -/
def startRun (byScheduler : Bool) (cc : Int) (ic : Nat) (mode : ModeFlags) : M Unit := do
  modify fun s => { s with targetCc := cc, targetIc := ic, mode := mode }
  let s ← get
  if s.replayMode = .endOfFile || s.replayMode = .outOfSync then runReturned byScheduler .outOfSync
  else set { s with phase := .running byScheduler }

/-- `replay_mode <- OutOfSync` (rule R664). -/
def loseSync : M Unit := modify fun s => { s with replayMode := .outOfSync }

/-- Step 6: the sub-run to the nearest of the target, the region bound and the audio boundary. -/
def subRun : M Unit := do
  let s ← get
  let bound := min s.target (min s.regionBound s.audioCc)
  let tic := if s.replayMode = .playing then (s.stream[s.frameIx]?.map (·.length)).getD 4294967295 else 4294967295
  startRun true bound tic (s.cfg.region s.cc).mode

/-- Steps 4 to 6. -/
def audioOrRun : M Unit := do
  let s ← get
  if s.audioCc ≤ s.cc then audioBlock
  else if s.target ≤ s.cc then answer .done
  else subRun

/-- One pass of the scheduler loop. -/
def schedulerStep : M Unit := do
  let s ← get
  match s.replayMode with
  | .outOfSync => answer .outOfSync
  | .endOfFile => answer .endOfFile
  | .playing =>
    match s.stream[s.frameIx]? with
    | none => loseSync
    | some fr =>
      if s.ic = fr.length then
        if s.cpf ≤ s.cc && s.byteIx = fr.inputs.length then flyback else loseSync
      else if s.frameBound ≤ s.cc then loseSync
      else audioOrRun
  | .idle => if s.cpf ≤ s.cc then flyback else audioOrRun
  | .recording => if s.cpf ≤ s.cc then flyback else audioOrRun

end Sys2Proof.Machine
end

