-- ==== Sys2Proof/Machine/HostOps.lean ====
section
/-! DEFINITION. The host's operations between scheduling calls (70_reset_and_hazards.md): power-on, reset, attach and detach,
snapshots, replay control, storage management and the debugger; and what the agent does next. -/

namespace Sys2Proof.Machine

/-! ## Power-on and reset (rules R750 and R751) -/

/-- The flags that only the debugger sets (10_state.md rule R33). -/
def CellFlags.debugger (f : CellFlags) : Bool := f.breakRead || f.breakWrite || f.breakExec || f.logAccess

/-- No Cell of the block carries a flag of the debugger's. -/
def Block.unwatched (b : Block) : Bool := !b.baseFlags.debugger && b.flags.all fun e => !e.2.debugger

/-- The ranges of 00_scope.md rule R7, the canonical form of the storage given, no flag of the debugger's on its Cells
(10_state.md rule R80), and a chain with its `L[0]`. -/
def PowerOnConfig.ok (c : PowerOnConfig) (cc0 : Int) : Bool :=
  decide (1 ≤ c.cfg.pageBits) && decide (c.cfg.pageBits ≤ 16) && decide (1 ≤ c.cfg.snapshotInterval) &&
    c.cfg.audioOk && Memory.wfFrom 1 c.blocks && c.blocks.all (·.unwatched) && !c.links.isEmpty && inI32 cc0

/-- The block `SINK` (10_state.md rule R31). -/
def Cfg.sink (c : Cfg) : Block := { id := sinkId, len := c.pageSize }

/-- A link as it stands before the `powerOn` handlers run (rule R750 step 3). -/
def Link.fresh (l : Link) (want hidden : Bool) : Link :=
  { l with want := want, hidden := hidden, maps := [], ovl := [] }

/-- The registers at power-on (10_state.md rule R80): the drawn ones are `draws`' own. -/
def powerOnRegs (draws : Regs) : Regs :=
  { draws with
    a := 0xFF, f := 0xFF, sp := 0xFFFF, pc := 0, i := 0, r := 0, iff1 := false, iff2 := false, im := .im0
    halted := false, intBlock := false, nmiPending := false }

/-- The state of 10_state.md rule R80 before the `powerOn` handlers run. -/
def powerOnState (c : PowerOnConfig) (cc0 : Int) (s : State) : State where
  regs := powerOnRegs c.draws
  cc := cc0
  ic := 0
  targetCc := 0
  targetIc := 0
  mode := {}
  stackBreak := none
  pendingExit := none
  execBpSkip := none
  mem := c.cfg.sink :: c.blocks
  pages := List.replicate c.cfg.nPages []
  nextHandle := 0
  chain := c.links.mapIdx fun i l => l.fresh (i == 0) false
  cpf := c.cfg.cpf0
  frameCount := 0
  audioCc := c.cfg.firstAudioCc
  target := 0
  replayMode := .idle
  stream := []
  frameIx := 0
  byteIx := 0
  recBytes := []
  recSnap := none
  accessLog := []
  refused := none
  faulted := none
  cfg := c.cfg
  phase := .suspended
  latch := none
  hostOps := s.hostOps
  results := s.results
  callouts := s.callouts

/-- `PowerOn(cc0)` (rule R750). -/
def powerOn (c : PowerOnConfig) (cc0 : Int) : M Unit := do
  if !c.ok cc0 then M.refuse .badConfig
  if c.links.any (·.badPattern) then M.refuse .badPattern
  if !c.cfg.geometryOk c.cfg.cpf0 then M.refuse .badFrameGeometry
  modify (powerOnState c cc0)
  foldChain (x := ()) fun _ i l => do
    let _ ← runHandler i false l.handlers.powerOn (.powerOn l.dev cc0)
    if i = 0 then mapOwn 0
  if (← get).pages.any (·.isEmpty) then M.refuse .noBaseline
  answer .done

/-- The registers a reset writes (10_state.md rule R80); the others are kept. -/
def resetRegs (g : Regs) : Regs :=
  { g with pc := 0, i := 0, r := 0, iff1 := false, iff2 := false, im := .im0
           halted := false, intBlock := false, nmiPending := false }

/-- `Reset(time, cc)` (rule R751). -/
def resetCpu : M Unit := do
  modify fun s => { s with regs := resetRegs s.regs, pendingExit := none, execBpSkip := none }
  let s ← get
  lifecycle (·.reset) fun dev => .reset dev (s.cfg.audioTimeAt s.cc) s.cc
  answer .done

/-! ## Snapshots and replay control (rule R753, 55_scheduler_replay.md rules R660 to R668) -/

/-- `Load(snap)`: a failed check, or a failure the snapshot collaborator reports, leaves the state as it was. -/
def loadSnapshot (snap : Option Snapshot) : M Unit := do
  let s ← get
  match snap with
  | some d =>
    if s.loadOk d then
      set (s.load d)
      answer .loaded
    else answer .loadFailed
  | none => answer .loadFailed

/-- `StartPlaying(s, k)` (rule R661). -/
def startPlaying (stream : List ReplayFrame) (k : Nat) : M Unit := do
  let s ← get
  if s.replayMode = .idle || s.replayMode = .outOfSync then
    match stream[k]?.bind (·.snapshot) with
    | some d =>
      if s.loadOk d then
        set { s.load d with stream := stream, frameIx := k, byteIx := 0, replayMode := .playing }
        answer .done
      else answer .loadFailed
    | none => M.refuse .badReplayTransition
  else M.refuse .badReplayTransition

/-- `StartRecording()` (rule R662). -/
def startRecording : M Unit := do
  let s ← get
  if s.replayMode = .idle || s.replayMode = .endOfFile then
    set { s with stream := [], recBytes := [], replayMode := .recording, recSnap := some s.save }
    answer .done
  else M.refuse .badReplayTransition

/-- A replay operation that only moves from one mode to another; any other mode is refused (rule R660). -/
def moveReplay (src dst : ReplayMode) : M Unit := do
  let s ← get
  if s.replayMode = src then
    set { s with replayMode := dst }
    answer .done
  else M.refuse .badReplayTransition

/-- `StopRecording()` (rule R663): the frame in progress is discarded. -/
def stopRecording : M Unit := do
  moveReplay .recording .idle
  modify fun s => { s with recBytes := [], recSnap := none }

/-! ## Attach and detach (50_bus.md rules R631 and R632) -/

/-- `Attach(pos, link)`. -/
def attach (pos : Nat) (l : Link) : M Unit := do
  let s ← get
  if l.badPattern then M.refuse .badPattern
  else if pos = 0 || s.chain.length < pos then M.refuse .badPosition
  else
    let new := l.fresh false ((s.chain.drop pos).any (·.want))
    set { s with chain := s.chain.take pos ++ new :: s.chain.drop pos }
    let _ ← runHandler pos false l.handlers.powerOn (.powerOn l.dev s.cc)
    answer .done

/-- `Detach(i)`. -/
def detach (i : Nat) : M Unit := do
  if i = 0 || (← get).chain.length ≤ i then M.refuse .badPosition
  else
    if (← get).want i then stopWanting i
    match (← get).chain[i]? with
    | some l =>
      l.ovl.forM unmapPages
      (l.maps.map (·.2)).forM unmapPages
    | none => pure ()
    modify fun s => { s with chain := s.chain.eraseIdx i }
    answer .done

/-! ## Storage (rule R770) -/

/-- Creates a block with a fresh identifier. -/
def createBlock (len : Nat) (data : List Host.Cell) (flags : CellFlags) : M Unit := do
  let s ← get
  let id := s.mem.foldl (fun n b => max n (b.id + 1)) 1
  let b : Block := { id := id, len := len, data := data, baseFlags := flags }
  if len = 0 then M.refuse .badBlock
  else if !b.wf then M.refuse .badConfig
  else
    set { s with mem := s.mem.insert b }
    answer (.created id)

/-- Whether a block may be freed or resized: no mapping refers to it, and it is not SINK. -/
def State.mayChange (s : State) (id : Nat) : Bool := id != sinkId && !s.pages.refersTo id

/-- Frees a block. -/
def freeBlock (id : Nat) : M Unit := do
  let s ← get
  if (s.mem.block? id).isNone then M.refuse .badBlock
  else if !s.mayChange id then M.refuse .freeWhileMapped
  else
    set { s with mem := s.mem.filter (·.id != id) }
    answer .done

/-- A block of another length: Cells beyond it are gone, new ones are as unlisted ones. -/
def Block.resize (b : Block) (len : Nat) : Block :=
  { b with len := len, data := sparseTrim len b.data, flags := sparseTrim len b.flags }

/-- Resizes a block. -/
def resizeBlock (id len : Nat) : M Unit := do
  let s ← get
  if (s.mem.block? id).isNone || len = 0 then M.refuse .badBlock
  else if !s.mayChange id then M.refuse .freeWhileMapped
  else
    set { s with mem := s.mem.update id (·.resize len) }
    answer .done

/-! ## Debugger reads (rules R772 and R773) -/

/-- What the debugger reads in the state as it stands; a Cell that no block has reads as nothing. -/
def State.debugRead (s : State) : DebugRead → Option DebugValue
  | .regs => some (.regs s.regs)
  | .cell b k => (s.mem.cell? { block := b, base := k }).map fun c => .cell c.data c.flags
  | .stackBreak => some (.stackBreak s.stackBreak)
  | .accessLog => some (.accessLog s.accessLog)
  | .counters => some (.counters s.cc s.ic s.target s.cpf s.frameCount s.audioCc)
  | .pages => some (.pages s.pages)
  | .chain => some (.chain s.chain)
  | .replay => some (.replay s.replayMode s.stream s.frameIx s.byteIx s.recBytes)

/-- A debugger read: it answers and changes nothing. -/
def debugRead (q : DebugRead) : M Unit := do
  match (← get).debugRead q with
  | some v => answer (.read v)
  | none => M.refuse .badCell

/-! ## The operations -/

/-- `Schedule(t)` (55_scheduler_replay.md rule R640). -/
def schedule (t : Int) : M Unit := modify fun s => { s with target := t, phase := .scheduling }

/-- One host operation (rules R772 and R773). -/
def hostOp : HostOp → M Unit
  | .powerOn c cc0 => powerOn c cc0
  | .schedule t => schedule t
  | .run cc ic mode => startRun false cc ic mode
  | .reset => resetCpu
  | .startPlaying s k => startPlaying s k
  | .startRecording => startRecording
  | .stopRecording => stopRecording
  | .holdOutOfSync => moveReplay .endOfFile .outOfSync
  | .goLive => moveReplay .outOfSync .idle
  | .attach pos l => attach pos l
  | .detach i => detach i
  | .load d => loadSnapshot d
  | .save => do answer (.saved (← get).save)
  | .map q => do answer (.mapped (← mapPages q))
  | .unmap h => do
    unmapPages h
    answer .done
  | .createBlock len data flags => createBlock len data flags
  | .freeBlock id => freeBlock id
  | .resizeBlock id len => resizeBlock id len
  | .setRegs ws => do
    modRegs (applyRegWrites ws)
    answer .done
  | .writeCell b k v => do
    pokeCell { block := b, base := k } v
    answer .done
  | .setFlags b k f => do
    pokeFlags { block := b, base := k } f
    answer .done
  | .setStackBreak v => do
    modify fun s => { s with stackBreak := v }
    answer .done
  | .requestNMI => do
    modRegs fun g => { g with nmiPending := true }
    answer .done
  | .debugRead q => debugRead q

/-! ## The agent (00_scope.md rule R6) -/

/-- What the agent does next; `ex` executes the instruction whose first byte it is given. Suspended with no host operation
pending, it waits. -/
def agentStep (ex : Byte → M Unit) : M Unit := do
  let s ← get
  match s.phase with
  | .suspended =>
    match s.hostOps with
    | [] => return ()
    | op :: rest =>
      set { s with hostOps := rest }
      hostOp op
  | .scheduling => schedulerStep
  | .running byScheduler =>
    match ← runStep ex with
    | some e => runReturned byScheduler e
    | none => return ()

end Sys2Proof.Machine
end

