-- ==== Sys2Proof/Machine/Step.lean ====
section
/-! DEFINITION. One step of the machine's one agent (00_scope.md rule R6): a host operation, a pass of the scheduler loop, or a
boundary step of a run; and where a step fetches its next instruction. -/

namespace Sys2Proof.Machine

/-- A state with a mark takes no step (10_state.md rule R69). -/
def stepWith (ex : Byte → M Unit) (s : State) : Host.Outcome State Fault Refusal :=
  match s.faulted, s.refused with
  | some f, _ => .fault f
  | none, some r => .refused r
  | none, none => perform (agentStep ex) s

/-- One step. -/
noncomputable def step (s : State) : Host.Outcome State Fault Refusal := stepWith execute s

/-- One step by form: what compiled code runs for `step`. -/
def stepByForm (s : State) : Host.Outcome State Fault Refusal := stepWith executeForm s

@[csimp] theorem step_eq_stepByForm : @step = @stepByForm := by
  funext s
  simp only [step, stepByForm, execute_eq_executeForm]

/-- The state a stop leaves for the host: the state with the mark set (10_state.md rule R69). -/
def State.mark (s : State) : Stop → State
  | .fault f => { s with faulted := some f }
  | .refused r => { s with refused := some r }

/-- Stores a byte in the Cell that a fetch at `a` reads. -/
def State.storeFetch (s : State) (a : Word) (v : Byte) : State :=
  match activeMapping s.cfg s.pages a with
  | some m => { s with mem := s.mem.setData (m.read.at s.cfg a) v }
  | none => s

/-- Stores bytes from `a` on. -/
def State.storeFetches (s : State) : Word → List Byte → State
  | _, [] => s
  | a, v :: t => (s.storeFetch a v).storeFetches (a + 1) t

/-- The replay mode of a run that goes on: a run executes nothing in the two others. -/
def runnable : ReplayMode → ReplayMode
  | .idle => .idle
  | .playing => .playing
  | .recording => .recording
  | .endOfFile => .idle
  | .outOfSync => .idle

/-- `s` with an instruction where the next step fetches: its bytes at PC, and the agent inside a run whose limits are not
reached, with no interrupt, exit, breakpoint, halt or device in the way of the fetch. -/
def State.withFetchWord (s : State) (nbits w : Nat) : State :=
  let t := s.storeFetches s.regs.pc (tableBytes nbits w)
  { t with
    phase := .running false
    latch := none
    targetCc := 2147483647
    targetIc := 4294967295
    mode := { s.mode with mmio := false, patch := false }
    pendingExit := none
    execBpSkip := some s.regs.pc
    replayMode := runnable s.replayMode
    refused := none
    faulted := none
    regs := { s.regs with halted := false, nmiPending := false, intBlock := s.regs.intBlock || s.regs.iff1 } }

end Sys2Proof.Machine
end

