-- ==== Sys2Proof/Safety.lean ====
section
/-! DEFINITION. The terms claims about the machine are stated in: the byte an address reads as, what a store changes, when a
bus cycle is calm (it does nothing but move its byte and take its time), and the invariants of storage and paging. -/

namespace Sys2Proof

/-- The source operand of a memory operand. -/
def Mem8.src : Mem8 → Src8
  | .atHL => .atHL
  | .atIdx i d => .atIdx i d

end Sys2Proof

namespace Sys2Proof.Machine

/-! ## Addresses and Cells -/

/-- The Cell a read of `a` reaches (20_memory.md rule R101). -/
def State.readRef (s : State) (a : Word) : Option Ref := (activeMapping s.cfg s.pages a).map (·.read.at s.cfg a)

/-- The Cell a write of `a` reaches. -/
def State.writeRef (s : State) (a : Word) : Option Ref := (activeMapping s.cfg s.pages a).map (·.write.at s.cfg a)

/-- The shadow Cell of `a`, where its mapping has one. -/
def State.shadowRef (s : State) (a : Word) : Option Ref :=
  (activeMapping s.cfg s.pages a).bind fun m => m.shadow.map (·.at s.cfg a)

/-- The byte a read of `a` finds in its Cell. -/
def State.byteAt (s : State) (a : Word) : Byte := (((s.readRef a).bind s.mem.cell?).map (·.data)).getD unlistedByte

/-- The word at `a`, low byte first (20_memory.md rule R110). -/
def State.wordAt (s : State) (a : Word) : Word := mkWord (s.byteAt (a + 1)) (s.byteAt a)

/-- Writes a Cell, where there is one. -/
def Memory.setAt (m : Memory) (r : Option Ref) (v : Byte) : Memory :=
  match r with
  | some r => m.setData r v
  | none => m

/-- Memory after a store of `v` at `a`: the primary Cell and the shadow Cell (20_memory.md rule R121). -/
def State.stored (s : State) (a : Word) (v : Byte) : Memory :=
  (s.mem.setAt (s.writeRef a) v).setAt (s.shadowRef a) v

/-- The state with a byte stored at `a`. -/
def State.store (s : State) (a : Word) (v : Byte) : State := { s with mem := s.stored a v }

/-- The state with a word stored at `a`, low byte first. -/
def State.store16 (s : State) (a w : Word) : State := (s.store a (lo w)).store (a + 1) (hi w)

/-- The state with `k` T-states passed. -/
def State.after (s : State) (k : Int) : State := { s with cc := s.cc + k }

/-- The state with its registers changed. -/
def State.withRegs (s : State) (f : Regs → Regs) : State := { s with regs := f s.regs }

/-- `cc` can advance by `k` within the i32 range. -/
def State.room (s : State) (k : Int) : Prop := s.cc + k ≤ 2147483647

/-! ## Calm cycles: no flag in force on the Cells a cycle evaluates -/

/-- A flag that acts on a read is in force (20_memory.md rule R120). -/
def ModeFlags.actsOnRead (m : ModeFlags) (f : CellFlags) : Bool :=
  (m.wait && f.wait) || (m.mmio && f.mmioRead) || (m.brk && f.breakRead) || (m.log && f.logAccess)

/-- A flag that acts on a write is in force (rule R121). -/
def ModeFlags.actsOnWrite (m : ModeFlags) (f : CellFlags) : Bool :=
  (m.wait && f.wait) || (m.video && f.videoTrack) || (m.mmio && f.mmioWrite) || (m.brk && f.breakWrite) ||
    (m.log && f.logAccess)

/-- A flag that acts on an opcode fetch is in force (rule R122). -/
def ModeFlags.actsOnFetch (m : ModeFlags) (f : CellFlags) : Bool :=
  (m.wait && f.wait) || (m.mmio && f.mmioRead) || (m.patch && f.patchOnExec) || (m.log && f.logAccess)

/-- The Cell is there and `acts` is false of its flags. -/
def State.quiet (s : State) (acts : CellFlags → Bool) (r : Ref) : Bool :=
  match s.mem.cell? r with
  | some c => !acts c.flags
  | none => false

/-- A read of `a` only moves its byte. -/
def State.calmRead (s : State) (a : Word) : Bool := (s.readRef a).any (s.quiet s.mode.actsOnRead)

/-- An opcode fetch at `a` only moves its byte. -/
def State.calmFetch (s : State) (a : Word) : Bool := (s.readRef a).any (s.quiet s.mode.actsOnFetch)

/-- Internal T-states at `a` do not wait (rule R123). -/
def State.calmIdle (s : State) (a : Word) : Bool := (s.readRef a).any (s.quiet fun f => s.mode.wait && f.wait)

/-- A write of `a` only stores its byte, in the primary and the shadow Cell. -/
def State.calmWrite (s : State) (a : Word) : Bool :=
  (s.writeRef a).any (s.quiet s.mode.actsOnWrite) && (s.shadowRef a).all (s.quiet s.mode.actsOnWrite)

/-! ## Operand addresses and the stack -/

/-- Where a memory operand lies. -/
def Regs.memEA (g : Regs) : Mem8 → Word
  | .atHL => g.hl
  | .atIdx i d => g.indexed i d

/-- `WZ` after a memory operand's address is formed. -/
def Regs.noteEA (g : Regs) : Mem8 → Regs
  | .atHL => g
  | .atIdx i d => { g with wz := g.indexed i d }

/-- The internal T-states of forming an operand's address: `k` with an index register, none for `(HL)`. -/
def eaTime (k : Nat) : Mem8 → Nat
  | .atHL => 0
  | .atIdx _ _ => k

/-- Forming the address does not wait. -/
def State.calmEA (s : State) : Mem8 → Bool
  | .atHL => true
  | .atIdx _ _ => s.calmIdle (s.regs.pc - 1)

/-- The state after `Push16(w)`: the high byte below the old SP, the low byte below that (41_load.md rule R330). -/
def State.pushed (s : State) (w : Word) : State :=
  ((s.store (s.regs.sp - 1) (hi w)).store (s.regs.sp - 2) (lo w)).withRegs fun g => { g with sp := g.sp - 2 }

/-- `Push16` only stores its two bytes. -/
def State.calmPush (s : State) : Bool := s.calmWrite (s.regs.sp - 1) && s.calmWrite (s.regs.sp - 2)

/-- `Pop16` only reads its two bytes. -/
def State.calmPop (s : State) : Bool := s.calmRead s.regs.sp && s.calmRead (s.regs.sp + 1)

/-- The register an XCB form copies its result into, if any, holds the result (30_encoding.md rule R174). -/
def Regs.copied (g : Regs) (copy : Option R7) (v : Byte) : Regs :=
  match copy with
  | some r => g.set8 r.reg v
  | none => g

/-- The registers after one LDI, LDD, LDIR or LDDR iteration that moved the byte `v` (42_exchange_block.md rule R366). -/
def Regs.ldMoved (g : Regs) (dir : Dir) (v : Byte) : Regs :=
  (((g.set16 .bc (g.bc - 1)).set16 .hl (g.hl + blockInc dir)).set16 .de (g.de + blockInc dir)).setFlags
    (ldBlockFlags v g.a (g.bc - 1) g.flags)

/-- The registers but WZ after one CPI, CPD, CPIR or CPDR iteration on the byte `v` (rule R370). -/
def Regs.cpMoved (g : Regs) (dir : Dir) (v : Byte) : Regs :=
  ((g.set16 .bc (g.bc - 1)).set16 .hl (g.hl + blockInc dir)).setFlags (cpBlockFlags g.a v (g.bc - 1) g.flags)

/-- The registers after one INI, IND, INIR or INDR iteration that received the byte `v` (49_io.md rule R578). -/
def Regs.inMoved (g : Regs) (dir : Dir) (v : Byte) : Regs :=
  { ({ g with b := g.b - 1 }.set16 .hl (g.hl + blockInc dir)).setFlags
      (ioBlockFlags v (g.b - 1) (g.c + lo (blockInc dir))) with
    wz := g.bc + blockInc dir }

/-- The registers after one OUTI, OUTD, OTIR or OTDR iteration that sent the byte `v` (49_io.md rule R582). -/
def Regs.outMoved (g : Regs) (dir : Dir) (v : Byte) : Regs :=
  { ({ g with b := g.b - 1 }.set16 .hl (g.hl + blockInc dir)).setFlags
      (ioBlockFlags v (g.b - 1) (lo (g.hl + blockInc dir))) with
    wz := mkWord (g.b - 1) g.c + blockInc dir }

/-- Reading and writing `a` only move their bytes. -/
def State.calmData (s : State) (a : Word) : Bool := s.calmRead a && s.calmWrite a

/-! ## Ports -/

/-- What link `l` answers an input at port `p` and cycle `cc` with; a link that does not match drives nothing. -/
def Link.answerIn (l : Link) (cc : Int) (p : Word) : HandlerResult :=
  match l.handlers.input with
  | some h => if l.matchesIn p then h.call (.input l.dev cc p) else { dev := l.dev, v := 0xFF }
  | none => { dev := l.dev, v := 0xFF }

/-- What link `l` answers an output with; a link that does not match does nothing. -/
def Link.answerOut (l : Link) (cc : Int) (p : Word) (v : Byte) : HandlerResult :=
  match l.handlers.output with
  | some h => if l.matchesOut p then h.call (.output l.dev cc p v) else { dev := l.dev }
  | none => { dev := l.dev }

/-- The T-states an I/O cycle at port `p` waits (50_bus.md rule R612). -/
def State.ioDelay (s : State) (p : Word) : Int := if s.mode.wait then s.cfg.addWaitCycles s.cc p - s.cc else 0

/-- The state once an I/O cycle has waited. -/
def State.waited (s : State) (p : Word) : State := s.after (s.ioDelay p)

/-- The input cycle does not wait a negative time, and no device's answer has an effect beyond its own state. -/
def State.calmIn (s : State) (p : Word) : Bool :=
  decide (0 ≤ s.ioDelay p) && s.chain.all fun l => (l.answerIn (s.waited p).cc p).effects.isEmpty

/-- The same of an output cycle. -/
def State.calmOut (s : State) (p : Word) (v : Byte) : Bool :=
  decide (0 ≤ s.ioDelay p) && s.chain.all fun l => (l.answerOut (s.waited p).cc p v).effects.isEmpty

/-- The bits some device drives low (50_bus.md rule R603). -/
def State.portLow (s : State) (p : Word) : Byte :=
  s.chain.foldl (fun acc l => acc &&& ((l.answerIn s.cc p).v ||| ~~~(l.answerIn s.cc p).drv)) 0xFF

/-- The bits some device drives. -/
def State.portDriven (s : State) (p : Word) : Byte :=
  s.chain.foldl (fun drv l => drv ||| (l.answerIn s.cc p).drv) 0x00

/-- The byte port `p` resolves to: the AND of what is driven, and the floating bus where nothing is (rules R603, R607). -/
def State.portByte (s : State) (p : Word) : Byte :=
  s.portLow p &&& (s.cfg.floatingBusByte s.cc ||| s.portDriven p)

/-- The chain after an input: every device that matched has its new state. -/
def State.chainIn (s : State) (p : Word) : List Link := s.chain.map fun l => { l with dev := (l.answerIn s.cc p).dev }

/-- The chain after an output. -/
def State.chainOut (s : State) (p : Word) (v : Byte) : List Link :=
  s.chain.map fun l => { l with dev := (l.answerOut s.cc p v).dev }

/-- The byte the CPU receives for the live byte `v` (50_bus.md rule R608). -/
def State.replayByte (s : State) (v : Byte) : Byte :=
  match s.replayMode with
  | .playing => (s.stream[s.frameIx]?.bind (·.inputs[s.byteIx]?)).getD v
  | _ => v

/-- The state after the replay hook has seen the live byte `v`. -/
def State.replayNext (s : State) (v : Byte) : State :=
  match s.replayMode with
  | .playing =>
    match s.stream[s.frameIx]?.bind (·.inputs[s.byteIx]?) with
    | some _ => { s with byteIx := s.byteIx + 1 }
    | none => { s with replayMode := .outOfSync }
  | .recording => { s with recBytes := s.recBytes ++ [v] }
  | _ => s

/-- The byte an input cycle at port `p` receives. -/
def State.inputByte (s : State) (p : Word) : Byte := (s.waited p).replayByte ((s.waited p).portByte p)

/-- The state after an input cycle at port `p` (50_bus.md rule R610). -/
def State.input (s : State) (p : Word) : State :=
  ({ s.waited p with chain := (s.waited p).chainIn p }.replayNext ((s.waited p).portByte p)).after 4

/-- The state after an output cycle (rule R611). -/
def State.output (s : State) (p : Word) (v : Byte) : State :=
  ({ s.waited p with
    chain := (s.waited p).chainOut p v
    callouts := s.callouts ++ [.portOut (s.waited p).cc p v] } : State).after 4

/-! ## Invariants -/

/-- The block SINK: one page long, its Cells without flags (10_state.md rule R31). -/
def Memory.sinkOk (m : Memory) (c : Cfg) : Bool :=
  match m.block? sinkId with
  | some b => decide (b.len = c.pageSize) && decide (b.baseFlags = {}) && b.flags.isEmpty
  | none => false

/-- Storage and paging are sound: memory in canonical form with its SINK, a PageTable of `N_PAGES` entries, none empty,
every `Ref` within its block and no read reference at SINK, and a chain whose `L[0]` wants (10_state.md rules R31, R34, R35,
R60; 20_memory.md rule R104). -/
def State.Inv (s : State) : Prop :=
  s.mem.wf = true ∧ s.mem.sinkOk s.cfg = true ∧ s.pages.ok s.cfg s.mem = true ∧ headWants s.chain = true

/-! ## Fetching -/

/-- The four bytes from `a` on, as a fetch would find them. -/
def State.bytesAt (s : State) (a : Word) : List Byte :=
  [s.byteAt a, s.byteAt (a + 1), s.byteAt (a + 2), s.byteAt (a + 3)]

/-- How many of an instruction's bytes are opcode fetches: a prefix and the byte after it, or the opcode alone
(30_encoding.md rule R163). -/
def fetchCount (bytes : List Byte) : Nat :=
  match bytes.head? with
  | some b => if b = 0xCB ∨ b = 0xED ∨ b = 0xDD ∨ b = 0xFD then 2 else 1
  | none => 0

/-- Whether an internal T-state stands before the operand byte (48_jump_call.md rule R544). -/
def isDjnz : Form → Bool
  | .djnz _ => true
  | _ => false

/-- `R` after `n` opcode fetches. -/
def bumpTimes : Nat → Byte → Byte
  | 0, r => r
  | n + 1, r => bumpTimes n (bumpR r)

/-- The T-states of fetching an instruction of a form: 4 for an opcode fetch, 3 for every other byte, 1 before DJNZ's
operand. -/
def fetchTime (f : Form) : Int :=
  4 * fetchCount f.encode + 3 * (f.encode.length - fetchCount f.encode : Nat) + (if isDjnz f then 1 else 0)

/-- The state with the bytes of an instruction fetched: PC past them, `R` counted, the time passed. -/
def State.fetched (s : State) (f : Form) : State :=
  (s.withRegs fun g =>
    { g with pc := g.pc + BitVec.ofNat 16 f.encode.length, r := bumpTimes (fetchCount f.encode) g.r }).after (fetchTime f)

/-- Every cycle of fetching an instruction at PC is calm: the first `fetchCount` are opcode fetches, the others reads. -/
def State.calmInstr (s : State) (f : Form) : Bool :=
  (List.range f.encode.length).all (fun k =>
    let a := s.regs.pc + BitVec.ofNat 16 k
    if k < fetchCount f.encode then s.calmFetch a else s.calmRead a) &&
  (!isDjnz f || s.calmIdle (mkWord s.regs.i (bumpR s.regs.r)))

/-! ## Instruction boundaries -/

/-- The agent is inside a run at an instruction boundary, no exit is pending and no limit is reached: steps 1 to 4 of the
boundary step all pass (35_engine.md rule R202). -/
def State.atBoundary (s : State) (byScheduler : Bool) : Prop :=
  s.faulted = none ∧ s.refused = none ∧ s.phase = .running byScheduler ∧ s.latch = none ∧ s.pendingExit = none ∧
    s.replayMode ≠ .outOfSync ∧ s.cc < s.targetCc ∧ s.ic < s.targetIc

/-- A maskable interrupt is due at this boundary (60_exceptions.md rule R711). -/
def State.intDue (s : State) : Bool := s.regs.iff1 && !s.regs.intBlock && s.cfg.intLineAt s.cc

/-- The boundary's checks all let the instruction at PC, or the halted step, execute (rule R202 steps 1 to 7). A CPU in the
middle of HALT checks no exec breakpoint. -/
def State.atExecute (s : State) (byScheduler : Bool) : Prop :=
  s.atBoundary byScheduler ∧ s.regs.nmiPending = false ∧ s.intDue = false ∧
    (s.regs.halted = true ∨ s.mode.brk = false ∨ s.execBpSkip = some s.regs.pc ∨
      ∃ r c, s.readRef s.regs.pc = some r ∧ s.mem.cell? r = some c ∧ c.flags.breakExec = false)

/-- After `StackCheck()` (rule R205). -/
def State.stackChecked (s : State) : State :=
  match s.stackBreak with
  | some v =>
    if s.mode.brk && decide (v.toNat < s.regs.sp.toNat) then
      { s with stackBreak := none, pendingExit := some (s.pendingExit.getD (.stackBreakpoint s.regs.sp)) }
    else s
  | none => s

/-- After the bookkeeping that ends an executed instruction (rule R202 step 8). -/
def State.completed (s : State) (wasEi : Bool) : State :=
  ({ s with ic := s.ic + 1, execBpSkip := none }.withRegs fun g => { g with intBlock := wasEi }).stackChecked

/-- After a run returned `e` to its caller: the host, or the scheduler, which goes on but for a breakpoint
(55_scheduler_replay.md rule R643 step 6). -/
def State.returned (s : State) (byScheduler : Bool) (e : ExitReason) : State :=
  if byScheduler then
    if e = .cycleLimitReached ∨ e = .instructionLimitReached ∨ e = .outOfSync then { s with phase := .scheduling }
    else { s with phase := .suspended, results := s.results ++ [.exit e] }
  else { s with phase := .suspended, results := s.results ++ [.runReturned e] }

/-- The registers of a CPU that leaves HALT, if it is halted: PC goes past the HALT byte (60_exceptions.md rule R718). -/
def Regs.awake (g : Regs) : Regs := if g.halted then { g with halted := false, pc := g.pc + 1 } else g

/-- After the acknowledge and the push of an interrupt entry: IFF1 cleared, IFF2 kept only by an NMI, `R` counted, PC
pushed, `ack` T-states and the two write cycles passed (rules R713 to R716). -/
def State.acknowledged (s : State) (nmi : Bool) (ack : Int) : State :=
  (((s.withRegs fun g => { g.awake with iff1 := false, iff2 := nmi && g.iff2, r := bumpR g.r }).pushed
    s.regs.awake.pc)).after (ack + 6)

/-- After the bookkeeping that ends an interrupt entry (35_engine.md rule R202 steps 5 and 6). -/
def State.entered (s : State) : State := { s.stackChecked with execBpSkip := none }

/-! ## Executing an instruction -/

/-- A memory operand outside the XCB format is formed and read calmly. -/
def State.calmLoad (s : State) (m : Mem8) : Bool := s.calmEA m && s.calmRead (s.regs.memEA m)

/-- A memory operand is formed and written calmly. -/
def State.calmStore (s : State) (m : Mem8) : Bool := s.calmEA m && s.calmWrite (s.regs.memEA m)

/-- A memory operand is formed, read and written calmly. -/
def State.calmModify (s : State) (m : Mem8) : Bool := s.calmEA m && s.calmData (s.regs.memEA m)

/-- The state in which an OUTI, OUTD, OTIR or OTDR makes its output cycle: B is decremented, and the internal T-state and
the read have passed (49_io.md rule R582). -/
def State.beforeOut (s : State) : State := (s.withRegs fun g => { g with b := g.b - 1 }).after 4

/-- Whether a block transfer goes round again. -/
def State.ldAgain (s : State) (rep : Bool) : Bool := rep && s.regs.bc - 1 != 0

/-- Whether a block search goes round again. -/
def State.cpAgain (s : State) (rep : Bool) : Bool := rep && s.regs.bc - 1 != 0 && s.regs.a - s.byteAt s.regs.hl != 0

/-- Whether a block input or output goes round again. -/
def State.ioAgain (s : State) (rep : Bool) : Bool := rep && s.regs.b - 1 != 0

/-- Every cycle an instruction makes after it is fetched is calm, or makes no difference to this instruction. -/
def State.calmExec (s : State) : Form → Bool
  | .ldRR _ _ | .ldRN _ _ | .ldXX _ _ _ | .ldXN _ _ _ | .ldRpNn _ _ | .ldXyNn _ _ => true
  | .ldRHL _ | .aluHL _ | .bitHL _ => s.calmLoad .atHL
  | .ldRIdx i _ d | .aluIdx _ i d | .bitIdx _ i d _ => s.calmLoad (.atIdx i d)
  | .ldHLR _ | .ldHLN _ => s.calmStore .atHL
  | .ldIdxR i _ d | .ldIdxN i d _ => s.calmStore (.atIdx i d)
  | .incHL | .decHL | .rotHL _ | .resHL _ | .setHL _ | .rld | .rrd => s.calmModify .atHL
  | .incIdx i d | .decIdx i d | .rotIdx _ i d _ | .resIdx _ i d _ | .setIdx _ i d _ => s.calmModify (.atIdx i d)
  | .ldAAt p => s.calmRead (s.regs.get16 p.reg)
  | .ldANn nn => s.calmRead nn
  | .ldAtA p => s.calmWrite (s.regs.get16 p.reg)
  | .ldNnA nn => s.calmWrite nn
  | .ldAI | .ldAR | .ldIA | .ldRA | .ldSpHL | .ldSpXy _ | .addHL _ | .addXy _ _ | .adcHL _ | .sbcHL _ | .incRp _ | .incXy _
  | .decRp _ | .decXy _ => s.calmIdle s.regs.ir
  | .ldHLAtNn nn | .ldXyAtNn _ nn | .ldRpAtNn _ nn => s.calmRead nn && s.calmRead (nn + 1)
  | .ldNnHL nn | .ldNnXy _ nn | .ldNnRp _ nn => s.calmWrite nn && s.calmWrite (nn + 1)
  | .push _ | .pushXy _ | .rst _ => s.calmIdle s.regs.ir && s.calmPush
  | .pop _ | .popXy _ | .ret | .reti | .retn _ => s.calmPop
  | .exAF | .exDEHL | .exx | .aluR _ _ | .aluN _ _ | .aluX _ _ _ | .incR _ | .incX _ _ | .decR _ | .decX _ _ => true
  | .exSpHL | .exSpXy _ => s.calmData s.regs.sp && s.calmData (s.regs.sp + 1)
  | .ldBlock _ _ => s.calmRead s.regs.hl && s.calmWrite s.regs.de && s.calmIdle s.regs.de
  | .cpBlock _ _ => s.calmRead s.regs.hl
  | .daa | .cpl | .neg _ | .ccf | .scf | .nop | .edNop _ | .halt | .di | .ei | .im _ => true
  | .rlca | .rrca | .rla | .rra | .rotR _ _ | .bitR _ _ | .resR _ _ | .setR _ _ => true
  | .jpNn _ | .jpCc _ _ | .jpHL | .jpXy _ | .ignored _ _ => true
  | .jr _ => s.calmIdle (s.regs.pc - 1)
  | .jrCc y _ => !condHolds y s.regs.flags || s.calmIdle (s.regs.pc - 1)
  | .djnz _ => s.regs.b - 1 == 0 || s.calmIdle (s.regs.pc - 1)
  | .callNn _ => s.calmIdle (s.regs.pc - 1) && s.calmPush
  | .callCc y _ => !condHolds y s.regs.flags || (s.calmIdle (s.regs.pc - 1) && s.calmPush)
  | .retCc y => s.calmIdle s.regs.ir && (!condHolds y s.regs.flags || s.calmPop)
  | .inAN n => s.calmIn (mkWord s.regs.a n)
  | .inRC _ | .inFC => s.calmIn s.regs.bc
  | .outNA n => s.calmOut (mkWord s.regs.a n) s.regs.a
  | .outCR y => s.calmOut s.regs.bc (s.regs.get8 y.reg)
  | .outC0 => s.calmOut s.regs.bc Config.outC0Value
  | .inBlock _ rep =>
    s.calmIdle s.regs.ir && (s.after 1).calmIn s.regs.bc && s.calmWrite s.regs.hl &&
      (!s.ioAgain rep || s.calmIdle s.regs.hl)
  | .outBlock _ rep =>
    s.calmIdle s.regs.ir && s.calmRead s.regs.hl && s.beforeOut.calmOut s.beforeOut.regs.bc (s.byteAt s.regs.hl) &&
      (!s.ioAgain rep || s.calmIdle s.beforeOut.regs.bc)

/-- The T-states an instruction takes after it is fetched, with the waits of its port cycle
(70_reset_and_hazards.md rule R763, 41_load.md to 49_io.md). -/
def State.execTime (s : State) : Form → Int
  | .ldRR _ _ | .ldRN _ _ | .ldXX _ _ _ | .ldXN _ _ _ | .ldRpNn _ _ | .ldXyNn _ _ => 0
  | .ldRHL _ | .ldHLR _ | .ldHLN _ | .ldAAt _ | .ldANn _ | .ldAtA _ | .ldNnA _ | .aluHL _ => 3
  | .ldAI | .ldAR | .ldIA | .ldRA => 1
  | .ldRIdx _ _ _ | .ldIdxR _ _ _ | .aluIdx _ _ _ => 8
  | .ldIdxN _ _ _ => 5
  | .ldHLAtNn _ | .ldXyAtNn _ _ | .ldRpAtNn _ _ | .ldNnHL _ | .ldNnXy _ _ | .ldNnRp _ _ => 6
  | .ldSpHL | .ldSpXy _ | .incRp _ | .incXy _ | .decRp _ | .decXy _ => 2
  | .push _ | .pushXy _ | .rst _ | .addHL _ | .addXy _ _ | .adcHL _ | .sbcHL _ => 7
  | .pop _ | .popXy _ | .ret | .reti | .retn _ => 6
  | .exAF | .exDEHL | .exx | .aluR _ _ | .aluN _ _ | .aluX _ _ _ | .incR _ | .incX _ _ | .decR _ | .decX _ _ => 0
  | .exSpHL | .exSpXy _ => 15
  | .ldBlock _ rep => if s.ldAgain rep then 13 else 8
  | .cpBlock _ rep => if s.cpAgain rep then 13 else 8
  | .incHL | .decHL | .rotHL _ | .resHL _ | .setHL _ => 7
  | .incIdx _ _ | .decIdx _ _ => 12
  | .rotIdx _ _ _ _ | .resIdx _ _ _ _ | .setIdx _ _ _ _ => 9
  | .daa | .cpl | .neg _ | .ccf | .scf | .nop | .edNop _ | .halt | .di | .ei | .im _ => 0
  | .rlca | .rrca | .rla | .rra | .rotR _ _ | .bitR _ _ | .resR _ _ | .setR _ _ => 0
  | .rld | .rrd => 10
  | .bitHL _ => 4
  | .bitIdx _ _ _ _ => 6
  | .jpNn _ | .jpCc _ _ | .jpHL | .jpXy _ | .ignored _ _ => 0
  | .jr _ => 5
  | .jrCc y _ => if condHolds y s.regs.flags then 5 else 0
  | .djnz _ => if s.regs.b - 1 = 0 then 0 else 5
  | .callNn _ => 7
  | .callCc y _ => if condHolds y s.regs.flags then 7 else 0
  | .retCc y => if condHolds y s.regs.flags then 7 else 1
  | .inAN n | .outNA n => s.ioDelay (mkWord s.regs.a n) + 4
  | .inRC _ | .inFC | .outCR _ | .outC0 => s.ioDelay s.regs.bc + 4
  | .inBlock _ rep => (s.after 1).ioDelay s.regs.bc + (if s.ioAgain rep then 13 else 8)
  | .outBlock _ rep => s.beforeOut.ioDelay s.beforeOut.regs.bc + (if s.ioAgain rep then 13 else 8)

/-! ## Waiting bus cycles -/

/-- The wait T-states of a memory-class cycle at `a` (20_memory.md rule R130). -/
def State.waitTime (s : State) (a : Word) (m : Mapping) (f : CellFlags) : Int :=
  if s.mode.wait && f.wait then
    match m.wait with
    | some t => (t.at s.cc).toNat
    | none => s.cfg.addWaitCycles s.cc a - s.cc
  else 0

/-- `Latch(e)` if `hit` (rule R124). -/
def State.latched (s : State) (hit : Bool) (e : ExitReason) : State :=
  if hit then { s with pendingExit := some (s.pendingExit.getD e) } else s

/-- A record at the present cycle if `on` (rule R140). -/
def State.logged (s : State) (on : Bool) (k : AccessKind) (a : Word) : State :=
  if on then { s with accessLog := s.accessLog ++ [{ kind := k, addr := a, cc := s.cc }] } else s

/-- A call of `VideoUpdate` at the present cycle if `on` (rule R141). -/
def State.flushed (s : State) (on : Bool) : State :=
  if on then { s with callouts := s.callouts ++ [.videoUpdate s.cc] } else s

/-- After `WriteCell` of a Cell with flags `f` and no MMIO in force (rule R121). -/
def State.cellWritten (s : State) (r : Ref) (f : CellFlags) (a : Word) (v : Byte) : State :=
  ((({ s.flushed (s.mode.video && f.videoTrack) with
    mem := s.mem.setData r v } : State).latched (s.mode.brk && f.breakWrite) (.writeBreakpoint a))).logged
      (s.mode.log && f.logAccess) .write a

end Sys2Proof.Machine
end

