-- ==== Sys2Proof/Certificates/Slice0/Obligations.lean ====
section
/-! DEFINITION. What is claimed of the machine, one statement each. Instructions are grouped by the rule's form
(`Instr.form`), so a statement about a form is about every constructor of that form. A memory or port cycle is CALM when no
Cell flag in force, and no device effect, acts on it (Safety.lean); the cycles themselves, waits, breakpoints and logging
included, have statements of their own. -/

open Sys2Proof Sys2Proof.Machine

/-! ## Encoding (30_encoding.md) -/

/-- Decoding what the encoder writes gives the instruction back, every operand at every value, whatever follows. A
discarded prefix leaves the byte it precedes unread. -/
def Obligations.DecodeOfEncode : Prop :=
  ∀ (i : Instr) (rest : List Byte), i.wf = true → decode (encode i ++ rest) = .ok (i, i.form.unread ++ rest)

/-- Any four bytes begin an instruction (rules R175 and R225); what is decoded is well-formed, and its encoding is the
bytes read. -/
def Obligations.DecodingIsTotalAndExact : Prop :=
  (∀ (a b c d : Byte) (rest : List Byte), ∃ i t, decode (a :: b :: c :: d :: rest) = .ok (i, t)) ∧
    ∀ (bytes : List Byte) (i : Instr) (t : List Byte), decode bytes = .ok (i, t) →
      i.wf = true ∧ ∃ u, t = i.form.unread ++ u ∧ bytes = encode i ++ u

/-- Words written out from the encodings of 41_load.md to 49_io.md, one or more of every family. -/
def Obligations.SampleWords : Prop :=
  decodeTableWord 8 0x41 = some .ld_B_C ∧ decodeTableWord 16 0x5506 = some (.ld_B_n 0x55) ∧
  decodeTableWord 24 0xFF46DD = some (.ld_B_atIXd 0xFF) ∧ decodeTableWord 32 0x990236DD = some (.ld_atIXd_n 0x02 0x99) ∧
  decodeTableWord 32 0x60007BED = some (.ld_SP_atnn 0x6000) ∧ decodeTableWord 8 0xEB = some .ex_DE_HL ∧
  decodeTableWord 16 0xB0ED = some .ldir ∧ decodeTableWord 8 0x80 = some .add_A_B ∧
  decodeTableWord 16 0x25FD = some .dec_IYH ∧ decodeTableWord 8 0x27 = some .daa ∧
  decodeTableWord 16 0x5EED = some (.im_2 false) ∧ decodeTableWord 16 0x42ED = some .sbc_HL_BC ∧
  decodeTableWord 16 0x00CB = some .rlc_B ∧ decodeTableWord 32 0x0001CBDD = some (.rlc_atIXd_B 0x01) ∧
  decodeTableWord 16 0x7FCB = some .bit_7_A ∧ decodeTableWord 32 0xC600CBFD = some (.set_0_atIYd 0x00) ∧
  decodeTableWord 16 0xFE10 = some (.djnz_e 0xFE) ∧ decodeTableWord 24 0x1234CD = some (.call_nn 0x1234) ∧
  decodeTableWord 8 0xFF = some .rst_38H ∧ decodeTableWord 16 0xFEDB = some (.in_A_atn 0xFE) ∧
  decodeTableWord 16 0xA3ED = some .outi

/-! ## Reset and invariants -/

/-- The registers and counters of 10_state.md rule R80 at power-on, for which the rule gives a value. -/
def Obligations.ResetRegisters : Prop :=
  State.reset.regs.pc = 0x0000 ∧ State.reset.regs.i = 0x00 ∧ State.reset.regs.r = 0x00 ∧
    State.reset.regs.iff1 = false ∧ State.reset.regs.iff2 = false ∧ State.reset.regs.im = .im0 ∧
    State.reset.regs.af = 0xFFFF ∧ State.reset.regs.sp = 0xFFFF ∧ State.reset.regs.halted = false ∧
    State.reset.regs.intBlock = false ∧ State.reset.regs.nmiPending = false ∧ State.reset.pendingExit = none ∧
    State.reset.execBpSkip = none ∧ State.reset.ic = 0 ∧ State.reset.stackBreak = none ∧ State.reset.replayMode = .idle ∧
    State.reset.stream = [] ∧ State.reset.frameIx = 0 ∧ State.reset.byteIx = 0 ∧ State.reset.recBytes = [] ∧
    State.reset.recSnap = none ∧ State.reset.target = 0 ∧ State.reset.cpf = State.reset.cfg.cpf0 ∧
    State.reset.audioCc = State.reset.cfg.firstAudioCc ∧ State.reset.frameCount = 0 ∧ State.reset.accessLog = [] ∧
    State.reset.refused = none ∧ State.reset.faulted = none

/-- Storage and paging are sound after reset, `L[0]` wants, and the paging signals agree. -/
def Obligations.ResetSound : Prop := State.reset.Inv ∧ pagingOk State.reset.chain = true

/-- Every step of the agent, a host operation included, keeps storage and paging sound: memory in canonical form with its
SINK, every page with a mapping, every reference within its block, no read reference at SINK, and `L[0]` always wanting. -/
def Obligations.SoundnessKept : Prop := ∀ s t : State, s.Inv → step s = .next t → t.Inv

/-- The paging protocol keeps `hidden[i]` exactly when some later link wants (50_bus.md rule R624). -/
def Obligations.PagingSignalsKept : Prop :=
  ∀ (i : Nat) (s t : State), pagingOk s.chain = true → i < s.chain.length →
    (startWanting i s = .ok () t ∨ stopWanting i s = .ok () t) → pagingOk t.chain = true

/-- What no instruction changes, whatever its cycles meet: the counters and arguments of the run, the scheduler, the replay
stream, the marks, the configuration and the agent's place. The cycle counter never goes down. -/
def Obligations.EngineFrame : Prop :=
  ∀ (i : Instr) (s t : State), exec i s = .next t →
    t.ic = s.ic ∧ t.targetCc = s.targetCc ∧ t.targetIc = s.targetIc ∧ t.mode = s.mode ∧ t.stackBreak = s.stackBreak ∧
      t.execBpSkip = s.execBpSkip ∧ t.cpf = s.cpf ∧ t.frameCount = s.frameCount ∧ t.audioCc = s.audioCc ∧
      t.target = s.target ∧ t.stream = s.stream ∧ t.frameIx = s.frameIx ∧ t.recSnap = s.recSnap ∧
      t.refused = s.refused ∧ t.faulted = s.faulted ∧ t.cfg = s.cfg ∧ t.phase = s.phase ∧ t.hostOps = s.hostOps ∧
      t.results = s.results ∧ s.cc ≤ t.cc

/-! ## Steps (35_engine.md, 60_exceptions.md) -/

/-- At a boundary that lets it execute, a step fetches the instruction whose bytes stand at PC and is `exec` of it, then the
bookkeeping of the boundary step. A discarded prefix is executed without the bookkeeping. A stop of `exec` is the step's. -/
def Obligations.StepRunsDecodedInstruction : Prop :=
  ∀ (s : State) (b : Bool) (i : Instr) (rest : List Byte), s.atExecute b → s.regs.halted = false →
    decode (s.bytesAt s.regs.pc) = .ok (i, rest) → s.calmInstr i.form = true → s.room (fetchTime i.form) →
      (∀ t, exec i (s.fetched i.form) = .next t → t.latch = none → t.ic < 4294967295 →
        step s = .next (t.completed (isEiForm i.form))) ∧
      (∀ t op, exec i (s.fetched i.form) = .next t → t.latch = some op → step s = .next t) ∧
      (∀ f, exec i (s.fetched i.form) = .fault f → step s = .fault f) ∧
      ∀ r, exec i (s.fetched i.form) = .refused r → step s = .refused r

/-- A discarded index prefix only hands the byte after it on (30_encoding.md rule R173), and the next step goes on with that
byte, whatever the boundary checks would say: no boundary falls inside the chain (35_engine.md rule R221). -/
def Obligations.PrefixChainHasNoBoundary : Prop :=
  (∀ (i : Instr) (s : State) (x : XY) (op : Byte), i.form = .ignored x op → exec i s = .next { s with latch := some op }) ∧
    ∀ (s : State) (b : Bool) (op : Byte), s.faulted = none → s.refused = none → s.phase = .running b →
      s.latch = some op → step s = perform (execute op) { s with latch := none }

/-- The first four checks of the boundary step, in their order, and that a marked state takes no step (35_engine.md
rule R202, 10_state.md rule R69). -/
def Obligations.BoundaryReturnOrder : Prop :=
  (∀ s f, s.faulted = some f → step s = .fault f) ∧
    (∀ s r, s.faulted = none → s.refused = some r → step s = .refused r) ∧
    ∀ (s : State) (b : Bool), s.faulted = none → s.refused = none → s.phase = .running b → s.latch = none →
      (∀ e, s.pendingExit = some e → step s = .next (State.returned { s with pendingExit := none } b e)) ∧
      (s.pendingExit = none → s.replayMode = .outOfSync → step s = .next (s.returned b .outOfSync)) ∧
      (s.pendingExit = none → s.replayMode ≠ .outOfSync → s.targetCc ≤ s.cc →
        step s = .next (s.returned b .cycleLimitReached)) ∧
      (s.pendingExit = none → s.replayMode ≠ .outOfSync → s.cc < s.targetCc → s.targetIc ≤ s.ic →
        step s = .next (s.returned b .instructionLimitReached))

/-- An exec breakpoint is reported before its instruction, with nothing fetched and the mark set that lets that instruction
run when the run resumes (35_engine.md rule R204). -/
def Obligations.ExecBreakpointReported : Prop :=
  ∀ (s : State) (b : Bool) (r : Ref) (c : CellView), s.atBoundary b → s.regs.nmiPending = false → s.intDue = false →
    s.regs.halted = false → s.mode.brk = true → s.execBpSkip ≠ some s.regs.pc → s.readRef s.regs.pc = some r →
    s.mem.cell? r = some c → c.flags.breakExec = true →
      step s = .next (State.returned { s with execBpSkip := some s.regs.pc } b (.execBreakpoint s.regs.pc))

/-- The halted step (44_control.md rule R450): one fetch cycle at the HALT byte, PC kept, counted as an instruction. -/
def Obligations.HaltedStep : Prop :=
  ∀ (s : State) (b : Bool), s.atExecute b → s.regs.halted = true → s.calmFetch s.regs.pc = true → s.room 4 →
    s.ic < 4294967295 →
      step s = .next (((s.withRegs fun g => { g with r := bumpR g.r }).after 4).completed false)

/-- A pending NMI is accepted before anything else at its boundary, halted or not (60_exceptions.md rule R713). -/
def Obligations.NmiEntry : Prop :=
  ∀ (s : State) (b : Bool), s.atBoundary b → s.regs.nmiPending = true → s.calmPush = true → s.room 11 →
    step s = .next (((s.acknowledged true 5).withRegs fun g =>
      { g with nmiPending := false, intBlock := false, pc := 0x0066, wz := 0x0066 }).entered)

/-- A maskable interrupt that is due enters in the three modes (rules R714 to R716), and in mode 0 a byte that is not an RST
opcode is refused. The vector of mode 2 is read after the push. -/
def Obligations.InterruptEntry : Prop :=
  ∀ (s : State) (b : Bool), s.atBoundary b → s.regs.nmiPending = false → s.intDue = true →
    let ack := s.cfg.intAckByte s.cc
    let t := s.acknowledged false 7
    (s.regs.im = .im0 → ack &&& 0xC7 ≠ 0xC7 → step s = .refused .im0NotRst) ∧
      (s.regs.im = .im0 → ack &&& 0xC7 = 0xC7 → s.calmPush = true → s.room 13 →
        step s = .next ((t.withRegs fun g =>
          { g with pc := mkWord 0 (ack &&& 0x38), wz := mkWord 0 (ack &&& 0x38) }).entered)) ∧
      (s.regs.im = .im1 → s.calmPush = true → s.room 13 →
        step s = .next ((t.withRegs fun g => { g with pc := 0x0038, wz := 0x0038 }).entered)) ∧
      (s.regs.im = .im2 → s.calmPush = true → s.calmRead (mkWord s.regs.i ack) = true →
        s.calmRead (mkWord s.regs.i ack + 1) = true → s.room 19 →
          step s = .next (((t.after 6).withRegs fun g =>
            { g with pc := t.wordAt (mkWord s.regs.i ack), wz := t.wordAt (mkWord s.regs.i ack) }).entered))

/-- `Latch(e)` keeps the first breakpoint of an instruction (rule R124). `StackCheck()` latches through it, once, when SP stands
above the limit, and keeps an exit latched before it (35_engine.md rule R205). -/
def Obligations.StackBreakpoint : Prop :=
  ∀ s : State,
    (∀ e, latchExit e s = .ok () (if s.pendingExit = none then { s with pendingExit := some e } else s)) ∧
    (s.stackBreak = none → stackCheck s = .ok () s) ∧
    ∀ v : Word, s.stackBreak = some v →
      (s.mode.brk = true → v.toNat < s.regs.sp.toNat → s.pendingExit = none →
        stackCheck s = .ok () { s with stackBreak := none, pendingExit := some (.stackBreakpoint s.regs.sp) }) ∧
      (∀ e, s.mode.brk = true → v.toNat < s.regs.sp.toNat → s.pendingExit = some e →
        stackCheck s = .ok () { s with stackBreak := none }) ∧
      (s.mode.brk = false ∨ s.regs.sp.toNat ≤ v.toNat → stackCheck s = .ok () s)

/-! ## Bus cycles and storage (20_memory.md) -/

/-- `MR(a)` and one T-state of `N(a, k)` with their waits (rules R120, R123, R130): a negative wait is a fault of either, the
internal T-state evaluates no other flag, and a read that no device handler takes checks its breakpoint and the log. -/
def Obligations.ReadCycle : Prop :=
  ∀ (s : State) (a : Word) (m : Mapping) (c : CellView), activeMapping s.cfg s.pages a = some m →
    s.mem.cell? (m.read.at s.cfg a) = some c →
      let w := s.waitTime a m c.flags
      (w < 0 → mr a s = .error (.fault .negativeWait) s ∧ internal1 a s = .error (.fault .negativeWait) s) ∧
      (0 ≤ w → s.room (w + 1) → internal1 a s = .ok () (s.after (w + 1))) ∧
      (0 ≤ w → s.room (w + 3) → (s.mode.mmio && c.flags.mmioRead) = false →
        mr a s = .ok c.data ((((s.after w).latched (s.mode.brk && c.flags.breakRead) (.readBreakpoint a)).logged
          (s.mode.log && c.flags.logAccess) .read a).after 3))

/-- `M1(a)` with its waits and the log, where no device handler takes the fetch: R counts, and no read breakpoint is checked
(rule R122). A negative wait is a fault, handlers or none. -/
def Obligations.FetchCycle : Prop :=
  ∀ (s : State) (a : Word) (m : Mapping) (c : CellView), activeMapping s.cfg s.pages a = some m →
    s.mem.cell? (m.read.at s.cfg a) = some c →
      let w := s.waitTime a m c.flags
      (w < 0 → m1 a s = .error (.fault .negativeWait) s) ∧
      (0 ≤ w → s.room (w + 4) → (s.mode.mmio && c.flags.mmioRead) = false →
        (s.mode.patch && c.flags.patchOnExec) = false →
          m1 a s = .ok c.data ((((s.after w).logged (s.mode.log && c.flags.logAccess) .fetch a).withRegs fun g =>
            { g with r := bumpR g.r }).after 4))

/-- `MW(a, v)` with the waits of the primary Cell alone, then the primary and the shadow Cell, each with its own flush,
breakpoint and log, where no device handler takes the write (rule R121). A negative wait is a fault, handlers or none. -/
def Obligations.WriteCycle : Prop :=
  ∀ (s : State) (a : Word) (v : Byte) (m : Mapping) (c : CellView), activeMapping s.cfg s.pages a = some m →
    s.mem.cell? (m.write.at s.cfg a) = some c →
      let w := s.waitTime a m c.flags
      let t := (s.after w).cellWritten (m.write.at s.cfg a) c.flags a v
      (w < 0 → mw a v s = .error (.fault .negativeWait) s) ∧
      (0 ≤ w → s.room (w + 3) → (s.mode.mmio && c.flags.mmioWrite) = false →
        (m.shadow = none → mw a v s = .ok () (t.after 3)) ∧
        ∀ r d, m.shadow = some r → s.mem.cell? (r.at s.cfg a) = some d → (s.mode.mmio && d.flags.mmioWrite) = false →
          mw a v s = .ok () ((t.cellWritten (r.at s.cfg a) d.flags a v).after 3))

/-- What reads find after a store: the byte stored where the read Cell is one of the two Cells written, the byte from before
everywhere else (rules R106, R121, R145). Where a page's writes go to SINK no read anywhere sees the store (10_state.md rules
R31 and R36). -/
def Obligations.StoreReadsBack : Prop :=
  ∀ (s : State) (a b : Word) (v : Byte) (r : Ref), s.Inv → s.readRef b = some r →
    (s.writeRef a = some r ∨ s.shadowRef a = some r → (s.store a v).byteAt b = v) ∧
      (s.writeRef a ≠ some r → s.shadowRef a ≠ some r → (s.store a v).byteAt b = s.byteAt b) ∧
      (∀ w, s.writeRef a = some w → w.block = sinkId → s.shadowRef a = none → (s.store a v).byteAt b = s.byteAt b)

/-- What `unmap` does (rule R103): the mappings of the handle leave every page that holds them, and an unknown handle, or one
whose removal would empty a page, is refused. `map` refuses a bad request, answers a fresh handle otherwise with the
request's own pages on top of theirs, and `unmap` of that handle restores every page's mappings; storage is untouched by both
(rules R102, R35). -/
def Obligations.MapThenUnmap : Prop :=
  (∀ (s : State) (h : Nat),
    ((∀ stack ∈ s.pages, ∀ x ∈ stack, x.handle ≠ h) → unmapPages h s = .error (.refused .badUnmap) s) ∧
    ((∃ stack ∈ s.pages, stack ≠ [] ∧ ∀ x ∈ stack, x.handle = h) → unmapPages h s = .error (.refused .badUnmap) s) ∧
    ((∃ stack ∈ s.pages, ∃ x ∈ stack, x.handle = h) → (∀ stack ∈ s.pages, stack ≠ [] → ∃ x ∈ stack, x.handle ≠ h) →
      unmapPages h s = .ok () { s with pages := s.pages.map fun stack => stack.filter fun x => x.handle != h })) ∧
  ∀ (s : State) (q : MapReq), (∀ stack ∈ s.pages, ∀ x ∈ stack, x.handle < s.nextHandle) →
    (∀ stack ∈ s.pages, stack ≠ []) →
      (q.ok s.cfg s.mem = false → mapPages q s = .error (.refused .misalignedMap) s) ∧
      (q.ok s.cfg s.mem = true → q.read.block ≠ sinkId → s.pages.length = s.cfg.nPages →
        ∃ t, mapPages q s = .ok s.nextHandle t ∧ t.mem = s.mem ∧
          (∀ k, q.start / s.cfg.pageSize ≤ k → k < q.start / s.cfg.pageSize + q.len / s.cfg.pageSize →
            ∃ stack, s.pages[k]? = some stack ∧
              t.pages[k]? = some (q.page s.cfg s.nextHandle (k - q.start / s.cfg.pageSize) :: stack)) ∧
          (∀ k, k < q.start / s.cfg.pageSize ∨ q.start / s.cfg.pageSize + q.len / s.cfg.pageSize ≤ k →
            t.pages[k]? = s.pages[k]?) ∧
          unmapPages s.nextHandle t = .ok () { s with nextHandle := s.nextHandle + 1 })

/-! ## Loads (41_load.md) -/

/-- Loads between registers and of an immediate byte or word write that register and nothing else (rules R301, R302, R319
to R322). -/
def Obligations.LoadRegisterForms : Prop :=
  ∀ (i : Instr) (s : State),
    (∀ y z, i.form = .ldRR y z → exec i s = .next (s.withRegs fun g => g.set8 y.reg (g.get8 z.reg))) ∧
    (∀ y n, i.form = .ldRN y n → exec i s = .next (s.withRegs (·.set8 y.reg n))) ∧
    (∀ x y z, i.form = .ldXX x y z → exec i s = .next (s.withRegs fun g => g.set8 (y.sub x) (g.get8 (z.sub x)))) ∧
    (∀ x y n, i.form = .ldXN x y n → exec i s = .next (s.withRegs (·.set8 (y.sub x) n))) ∧
    (∀ p nn, i.form = .ldRpNn p nn → exec i s = .next (s.withRegs (·.set16 p.reg nn))) ∧
    (∀ x nn, i.form = .ldXyNn x nn → exec i s = .next (s.withRegs (·.set16 x.reg nn)))

/-- Loads of a byte from memory, with WZ where the rule writes it (rules R303, R306 to R308, R316). -/
def Obligations.LoadFromMemoryForms : Prop :=
  ∀ (i : Instr) (s : State),
    (∀ y, i.form = .ldRHL y → s.calmRead s.regs.hl = true → s.room 3 →
      exec i s = .next ((s.withRegs fun g => g.set8 y.reg (s.byteAt g.hl)).after 3)) ∧
    (∀ x y d, i.form = .ldRIdx x y d → s.calmIdle (s.regs.pc - 1) = true → s.calmRead (s.regs.indexed x d) = true →
      s.room 8 → exec i s = .next ((s.withRegs fun g =>
        { g.set8 y.reg (s.byteAt (g.indexed x d)) with wz := g.indexed x d }).after 8)) ∧
    (∀ p, i.form = .ldAAt p → s.calmRead (s.regs.get16 p.reg) = true → s.room 3 →
      exec i s = .next ((s.withRegs fun g =>
        { g with a := s.byteAt (g.get16 p.reg), wz := g.get16 p.reg + 1 }).after 3)) ∧
    (∀ nn, i.form = .ldANn nn → s.calmRead nn = true → s.room 3 →
      exec i s = .next ((s.withRegs fun g => { g with a := s.byteAt nn, wz := nn + 1 }).after 3))

/-- Stores of a byte: the byte goes to the address the rule gives, WZ is written where the rule says, and nothing else changes
(rules R304, R305, R309 to R311, R317, R318). -/
def Obligations.StoreForms : Prop :=
  ∀ (i : Instr) (s : State),
    (∀ z, i.form = .ldHLR z → s.calmWrite s.regs.hl = true → s.room 3 →
      exec i s = .next ((s.store s.regs.hl (s.regs.get8 z.reg)).after 3)) ∧
    (∀ n, i.form = .ldHLN n → s.calmWrite s.regs.hl = true → s.room 3 → exec i s = .next ((s.store s.regs.hl n).after 3)) ∧
    (∀ x z d, i.form = .ldIdxR x z d → s.calmIdle (s.regs.pc - 1) = true → s.calmWrite (s.regs.indexed x d) = true →
      s.room 8 → exec i s = .next (((s.store (s.regs.indexed x d) (s.regs.get8 z.reg)).withRegs fun g =>
        { g with wz := g.indexed x d }).after 8)) ∧
    (∀ x d n, i.form = .ldIdxN x d n → s.calmIdle (s.regs.pc - 1) = true → s.calmWrite (s.regs.indexed x d) = true →
      s.room 5 → exec i s = .next (((s.store (s.regs.indexed x d) n).withRegs fun g =>
        { g with wz := g.indexed x d }).after 5)) ∧
    (∀ p, i.form = .ldAtA p → s.calmWrite (s.regs.get16 p.reg) = true → s.room 3 →
      exec i s = .next (((s.store (s.regs.get16 p.reg) s.regs.a).withRegs fun g =>
        { g with wz := mkWord g.a (lo (g.get16 p.reg + 1)) }).after 3)) ∧
    (∀ nn, i.form = .ldNnA nn → s.calmWrite nn = true → s.room 3 →
      exec i s = .next (((s.store nn s.regs.a).withRegs fun g => { g with wz := mkWord g.a (lo (nn + 1)) }).after 3))

/-- Loads between A and the registers I and R, after one internal T-state: `LD A,I` and `LD A,R` set S, Z, Y and X from the
byte, PV from IFF2, clear H and N and keep C (rules R312 to R315). -/
def Obligations.SpecialRegisterLoads : Prop :=
  ∀ (i : Instr) (s : State), s.calmIdle s.regs.ir = true → s.room 1 →
    (∀ v : Byte, (i.form = .ldAI ∧ v = s.regs.i) ∨ (i.form = .ldAR ∧ v = s.regs.r) →
      ∃ f : Byte, exec i s = .next ((s.withRegs fun g => { g with a := v, f := f }).after 1) ∧
        unpackF f = { s := v.getLsbD 7, z := decide (v = 0), y := v.getLsbD 5, h := false, x := v.getLsbD 3,
                      pv := s.regs.iff2, n := false, c := s.regs.f.getLsbD 0 }) ∧
    (i.form = .ldIA → exec i s = .next ((s.withRegs fun g => { g with i := g.a }).after 1)) ∧
    (i.form = .ldRA → exec i s = .next ((s.withRegs fun g => { g with r := g.a }).after 1))

/-- Words between a register pair and memory, low byte at the lower address, with WZ at the second byte (rules R323 to
R328). -/
def Obligations.WordMemoryForms : Prop :=
  ∀ (i : Instr) (s : State) (nn : Word) (r : Reg16), s.room 6 →
    ((i.form = .ldHLAtNn nn ∧ r = .hl) ∨ (∃ x, i.form = .ldXyAtNn x nn ∧ r = x.reg) ∨
      (∃ p, i.form = .ldRpAtNn p nn ∧ r = p.reg) → s.calmRead nn = true → s.calmRead (nn + 1) = true →
        exec i s = .next ((s.withRegs fun g =>
          { g.set16 r (mkWord (s.byteAt (nn + 1)) (s.byteAt nn)) with wz := nn + 1 }).after 6)) ∧
    ((i.form = .ldNnHL nn ∧ r = .hl) ∨ (∃ x, i.form = .ldNnXy x nn ∧ r = x.reg) ∨
      (∃ p, i.form = .ldNnRp p nn ∧ r = p.reg) → s.calmWrite nn = true → s.calmWrite (nn + 1) = true →
        exec i s = .next ((((s.store nn (lo (s.regs.get16 r))).store (nn + 1) (hi (s.regs.get16 r))).withRegs fun g =>
          { g with wz := nn + 1 }).after 6))

/-- `LD SP`, `PUSH` and `POP` (rules R329 to R335): a push writes the high byte at SP - 1 and the low byte at SP - 2, a pop
reads the low byte at SP and the high byte at SP + 1, modulo 2^16. -/
def Obligations.StackForms : Prop :=
  ∀ (i : Instr) (s : State) (r : Reg16),
    ((i.form = .ldSpHL ∧ r = .hl) ∨ (∃ x, i.form = .ldSpXy x ∧ r = x.reg) → s.calmIdle s.regs.ir = true → s.room 2 →
      exec i s = .next ((s.withRegs fun g => { g with sp := g.get16 r }).after 2)) ∧
    ((∃ p, i.form = .push p ∧ r = p.reg) ∨ (∃ x, i.form = .pushXy x ∧ r = x.reg) → s.calmIdle s.regs.ir = true →
      s.calmWrite (s.regs.sp - 1) = true → s.calmWrite (s.regs.sp - 2) = true → s.room 7 →
        exec i s = .next ((((s.store (s.regs.sp - 1) (hi (s.regs.get16 r))).store (s.regs.sp - 2)
          (lo (s.regs.get16 r))).withRegs fun g => { g with sp := g.sp - 2 }).after 7)) ∧
    ((∃ p, i.form = .pop p ∧ r = p.reg) ∨ (∃ x, i.form = .popXy x ∧ r = x.reg) → s.calmRead s.regs.sp = true →
      s.calmRead (s.regs.sp + 1) = true → s.room 6 →
        exec i s = .next ((s.withRegs fun g => { g with sp := g.sp + 2 }.set16 r
          (mkWord (s.byteAt (g.sp + 1)) (s.byteAt g.sp))).after 6))

/-! ## Exchanges and block instructions (42_exchange_block.md) -/

/-- The exchanges (rules R360 to R364). -/
def Obligations.ExchangeForms : Prop :=
  ∀ (i : Instr) (s : State),
    (i.form = .exAF → exec i s = .next (s.withRegs fun g => { g with a := g.a', f := g.f', a' := g.a, f' := g.f })) ∧
    (i.form = .exDEHL → exec i s = .next (s.withRegs fun g => { g with d := g.h, e := g.l, h := g.d, l := g.e })) ∧
    (i.form = .exx → exec i s = .next (s.withRegs fun g =>
      { g with b := g.b', c := g.c', d := g.d', e := g.e', h := g.h', l := g.l', b' := g.b, c' := g.c, d' := g.d,
               e' := g.e, h' := g.h, l' := g.l })) ∧
    (∀ r, (i.form = .exSpHL ∧ r = .hl) ∨ (∃ x, i.form = .exSpXy x ∧ r = x.reg) → s.calmData s.regs.sp = true →
      s.calmData (s.regs.sp + 1) = true → s.room 15 →
        exec i s = .next ((((s.store (s.regs.sp + 1) (hi (s.regs.get16 r))).store s.regs.sp
          (lo (s.regs.get16 r))).withRegs fun g =>
            { g.set16 r (s.wordAt g.sp) with wz := s.wordAt g.sp }).after 15))

/-- LDI, LDD, LDIR and LDDR (rules R366 to R369): one byte moved, the counter and the pointers stepped, the flags of rule R366;
a repeat goes back to the ED byte, writes WZ and takes 5 T-states more. -/
def Obligations.BlockTransfer : Prop :=
  ∀ (i : Instr) (s : State) (dir : Dir) (rep : Bool), i.form = .ldBlock dir rep → s.calmRead s.regs.hl = true →
    s.calmWrite s.regs.de = true → s.calmIdle s.regs.de = true → s.room 13 →
      let v := s.byteAt s.regs.hl
      let inc : Word := match dir with | .up => 1 | .down => -1
      let k := v + s.regs.a
      let again := rep = true ∧ s.regs.bc - 1 ≠ 0
      ∃ f : Byte, unpackF f = { unpackF s.regs.f with y := k.getLsbD 1, h := false, x := k.getLsbD 3,
                                                      pv := decide (s.regs.bc - 1 ≠ 0), n := false } ∧
        (again → exec i s = .next (((s.store s.regs.de v).withRegs fun g =>
          { ((g.set16 .bc (g.bc - 1)).set16 .hl (g.hl + inc)).set16 .de (g.de + inc) with
            f := f, pc := g.pc - 2, wz := g.pc - 1 }).after 13)) ∧
        (¬again → exec i s = .next (((s.store s.regs.de v).withRegs fun g =>
          { ((g.set16 .bc (g.bc - 1)).set16 .hl (g.hl + inc)).set16 .de (g.de + inc) with f := f }).after 8))

/-- CPI, CPD, CPIR and CPDR (rules R370 to R373): A compared with the byte at HL, no register but BC, HL, F, WZ and, on a
repeat, PC written. -/
def Obligations.BlockSearch : Prop :=
  ∀ (i : Instr) (s : State) (dir : Dir) (rep : Bool), i.form = .cpBlock dir rep → s.calmRead s.regs.hl = true → s.room 13 →
      let v := s.byteAt s.regs.hl
      let inc : Word := match dir with | .up => 1 | .down => -1
      let r := s.regs.a - v
      let h := (s.regs.a ^^^ v ^^^ r).getLsbD 4
      let k := r - bit8 h
      let again := rep = true ∧ s.regs.bc - 1 ≠ 0 ∧ r ≠ 0
      ∃ f : Byte, unpackF f = { s := r.getLsbD 7, z := decide (r = 0), y := k.getLsbD 1, h := h, x := k.getLsbD 3,
                                pv := decide (s.regs.bc - 1 ≠ 0), n := true, c := s.regs.f.getLsbD 0 } ∧
        (again → exec i s = .next ((s.withRegs fun g =>
          { (g.set16 .bc (g.bc - 1)).set16 .hl (g.hl + inc) with f := f, pc := g.pc - 2, wz := g.pc - 1 }).after 13)) ∧
        (¬again → exec i s = .next ((s.withRegs fun g =>
          { (g.set16 .bc (g.bc - 1)).set16 .hl (g.hl + inc) with f := f, wz := g.wz + inc }).after 8))

/-! ## 8-bit arithmetic and logic (43_arith8.md) -/

/-- Every operand form of the eight accumulator operations writes A and F with the operation's result, and WZ in the indexed
form; the operations themselves are `ByteFlagRules` (rules R400 to R408). -/
def Obligations.AccumulatorForms : Prop :=
  ∀ (i : Instr) (s : State) (op : AluOp),
    (∀ z, i.form = .aluR op z → exec i s = .next (s.withRegs fun g =>
      g.setAF (aluResult op g.a (g.get8 z.reg) (flagC g.f)))) ∧
    (∀ n, i.form = .aluN op n → exec i s = .next (s.withRegs fun g => g.setAF (aluResult op g.a n (flagC g.f)))) ∧
    (∀ x z, i.form = .aluX op x z → exec i s = .next (s.withRegs fun g =>
      g.setAF (aluResult op g.a (g.get8 (z.sub x)) (flagC g.f)))) ∧
    (i.form = .aluHL op → s.calmRead s.regs.hl = true → s.room 3 →
      exec i s = .next ((s.withRegs fun g => g.setAF (aluResult op g.a (s.byteAt g.hl) (flagC g.f))).after 3)) ∧
    (∀ x d, i.form = .aluIdx op x d → s.calmIdle (s.regs.pc - 1) = true → s.calmRead (s.regs.indexed x d) = true →
      s.room 8 → exec i s = .next ((s.withRegs fun g =>
        { g.setAF (aluResult op g.a (s.byteAt (g.indexed x d)) (flagC g.f)) with wz := g.indexed x d }).after 8))

/-- The flag helpers `AddFlags`, `SubFlags` and `LogicFlags` (rule R409), as bits of F, and the result and the helper each
accumulator operation uses (rules R401 to R408). -/
def Obligations.ByteFlagRules : Prop :=
  let logic (res : Byte) (h : Bool) : Flags :=
    { s := res.getLsbD 7, z := decide (res = 0), y := res.getLsbD 5, h := h, x := res.getLsbD 3, pv := parity res,
      n := false, c := false }
  ∀ (a s : Byte) (c : Bool),
    (∀ op cin, (op = .add ∧ cin = false) ∨ (op = .adc ∧ cin = c) →
      let t := a.toNat + s.toNat + cin.toNat
      let res := BitVec.ofNat 8 t
      (aluResult op a s c).1 = res ∧
        unpackF (aluResult op a s c).2.pack =
          { s := res.getLsbD 7, z := decide (res = 0), y := res.getLsbD 5, h := (a ^^^ s ^^^ res).getLsbD 4,
            x := res.getLsbD 3, pv := decide (a.getLsbD 7 = s.getLsbD 7 ∧ res.getLsbD 7 ≠ a.getLsbD 7), n := false,
            c := t.testBit 8 }) ∧
    (∀ op cin, (op = .sub ∧ cin = false) ∨ (op = .sbc ∧ cin = c) ∨ (op = .cp ∧ cin = false) →
      let t : Int := (a.toNat : Int) - s.toNat - cin.toNat
      let res := BitVec.ofInt 8 t
      (aluResult op a s c).1 = (if op = .cp then a else res) ∧
        unpackF (aluResult op a s c).2.pack =
          { s := res.getLsbD 7, z := decide (res = 0), y := if op = .cp then s.getLsbD 5 else res.getLsbD 5,
            h := (a ^^^ s ^^^ res).getLsbD 4, x := if op = .cp then s.getLsbD 3 else res.getLsbD 3,
            pv := decide (a.getLsbD 7 ≠ s.getLsbD 7 ∧ res.getLsbD 7 ≠ a.getLsbD 7), n := true, c := decide (t < 0) }) ∧
    ((aluResult .and a s c).1 = a &&& s ∧ unpackF (aluResult .and a s c).2.pack = logic (a &&& s) true) ∧
    ((aluResult .xor a s c).1 = a ^^^ s ∧ unpackF (aluResult .xor a s c).2.pack = logic (a ^^^ s) false) ∧
    ((aluResult .or a s c).1 = a ||| s ∧ unpackF (aluResult .or a s c).2.pack = logic (a ||| s) false)

/-- Every operand form of INC and DEC, with the flags of rules R410 and R414: C is kept, and the other half of an index
register is (rules R410 to R417). -/
def Obligations.IncrementForms : Prop :=
  ∀ (i : Instr) (s : State),
    let incF (v : Byte) : Flags :=
      { s := (v + 1).getLsbD 7, z := decide (v + 1 = 0), y := (v + 1).getLsbD 5, h := decide (v &&& 0x0F = 0x0F),
        x := (v + 1).getLsbD 3, pv := decide (v = 0x7F), n := false, c := s.regs.f.getLsbD 0 }
    let decF (v : Byte) : Flags :=
      { s := (v - 1).getLsbD 7, z := decide (v - 1 = 0), y := (v - 1).getLsbD 5, h := decide (v &&& 0x0F = 0x00),
        x := (v - 1).getLsbD 3, pv := decide (v = 0x80), n := true, c := s.regs.f.getLsbD 0 }
    (∀ r, (∃ y, i.form = .incR y ∧ r = y.reg) ∨ (∃ x y, i.form = .incX x y ∧ r = y.sub x) →
      ∃ f, unpackF f = incF (s.regs.get8 r) ∧
        exec i s = .next (s.withRegs fun g => { g.set8 r (g.get8 r + 1) with f := f })) ∧
    (∀ r, (∃ y, i.form = .decR y ∧ r = y.reg) ∨ (∃ x y, i.form = .decX x y ∧ r = y.sub x) →
      ∃ f, unpackF f = decF (s.regs.get8 r) ∧
        exec i s = .next (s.withRegs fun g => { g.set8 r (g.get8 r - 1) with f := f })) ∧
    (∀ m, (i.form = .incHL ∧ m = .atHL) ∨ (∃ x d, i.form = .incIdx x d ∧ m = .atIdx x d) → s.calmModify m = true →
      s.room (eaTime 5 m + 7) →
        let v := s.byteAt (s.regs.memEA m)
        ∃ f, unpackF f = incF v ∧
          exec i s = .next (((s.store (s.regs.memEA m) (v + 1)).withRegs fun g => { g.noteEA m with f := f }).after
            (eaTime 5 m + 7))) ∧
    (∀ m, (i.form = .decHL ∧ m = .atHL) ∨ (∃ x d, i.form = .decIdx x d ∧ m = .atIdx x d) → s.calmModify m = true →
      s.room (eaTime 5 m + 7) →
        let v := s.byteAt (s.regs.memEA m)
        ∃ f, unpackF f = decF v ∧
          exec i s = .next (((s.store (s.regs.memEA m) (v - 1)).withRegs fun g => { g.noteEA m with f := f }).after
            (eaTime 5 m + 7)))

/-! ## General-purpose and control operations (44_control.md) -/

/-- DAA, CPL, NEG, CCF and SCF write A and F as rules R440 to R444 say, and nothing else. -/
def Obligations.AccumulatorAdjust : Prop :=
  ∀ (i : Instr) (s : State),
    let a := s.regs.a
    let k := unpackF s.regs.f
    (i.form = .daa →
      let low := decide (9 < a.toNat % 16)
      let high := k.c || decide (0x99 < a.toNat)
      let t : Nat := (if k.h || low then 0x06 else 0) + (if high then 0x60 else 0)
      let res : Byte := if k.n then BitVec.ofInt 8 (a.toNat - t) else BitVec.ofNat 8 (a.toNat + t)
      ∃ f, exec i s = .next (s.withRegs fun g => { g with a := res, f := f }) ∧
        unpackF f = { s := res.getLsbD 7, z := decide (res = 0), y := res.getLsbD 5,
                      h := if k.n then k.h && decide (a.toNat % 16 < 6) else low, x := res.getLsbD 3, pv := parity res,
                      n := k.n, c := high }) ∧
    (i.form = .cpl → ∃ f, exec i s = .next (s.withRegs fun g => { g with a := ~~~a, f := f }) ∧
      unpackF f = { k with y := !a.getLsbD 5, h := true, x := !a.getLsbD 3, n := true }) ∧
    (∀ y, i.form = .neg y → ∃ f, exec i s = .next (s.withRegs fun g => { g with a := -a, f := f }) ∧
      unpackF f = { s := (-a).getLsbD 7, z := decide (a = 0), y := (-a).getLsbD 5, h := decide (a.toNat % 16 ≠ 0),
                    x := (-a).getLsbD 3, pv := decide (a = 0x80), n := true, c := decide (a ≠ 0) }) ∧
    (i.form = .ccf → ∃ f, exec i s = .next (s.withRegs fun g => { g with f := f }) ∧
      unpackF f = { k with y := a.getLsbD 5, h := k.c, x := a.getLsbD 3, n := false, c := !k.c }) ∧
    (i.form = .scf → ∃ f, exec i s = .next (s.withRegs fun g => { g with f := f }) ∧
      unpackF f = { k with y := a.getLsbD 5, h := false, x := a.getLsbD 3, n := false, c := true })

/-- NOP and every ED NOP change nothing; HALT sets `halted` and goes back to its own byte; DI and EI write the two enables; IM
writes the mode of `im[y]`, mode 0 for the two IM 0/1 codes (rules R445 to R449, R452). -/
def Obligations.ControlForms : Prop :=
  ∀ (i : Instr) (s : State),
    (i.form = .nop → exec i s = .next s) ∧
    (∀ op, i.form = .edNop op → exec i s = .next s) ∧
    (i.form = .halt → exec i s = .next (s.withRegs fun g => { g with halted := true, pc := g.pc - 1 })) ∧
    (i.form = .di → exec i s = .next (s.withRegs fun g => { g with iff1 := false, iff2 := false })) ∧
    (i.form = .ei → exec i s = .next (s.withRegs fun g => { g with iff1 := true, iff2 := true })) ∧
    (∀ y, i.form = .im y → exec i s = .next (s.withRegs fun g =>
      { g with im := if y.val % 4 = 2 then .im1 else if y.val % 4 = 3 then .im2 else .im0 }))

/-! ## 16-bit arithmetic (45_arith16.md) -/

/-- ADD, ADC and SBC of words with the flags of rule R469 and WZ, and INC and DEC of words, which write no flag (rules R470 to
R477). -/
def Obligations.WordArithmeticForms : Prop :=
  ∀ (i : Instr) (s : State), s.calmIdle s.regs.ir = true → s.room 7 →
    let k := unpackF s.regs.f
    (∀ dst src, (∃ p, i.form = .addHL p ∧ dst = .hl ∧ src = p.reg) ∨
        (∃ x p, i.form = .addXy x p ∧ dst = x.reg ∧ src = p.sub x) →
      let a := s.regs.get16 dst
      let b := s.regs.get16 src
      let res := BitVec.ofNat 16 (a.toNat + b.toNat)
      ∃ f, exec i s = .next ((s.withRegs fun g => { g.set16 dst res with f := f, wz := a + 1 }).after 7) ∧
        unpackF f = { k with y := res.getLsbD 13, h := (a ^^^ b ^^^ res).getLsbD 12, x := res.getLsbD 11, n := false,
                             c := (a.toNat + b.toNat).testBit 16 }) ∧
    (∀ p, i.form = .adcHL p →
      let a := s.regs.hl
      let b := s.regs.get16 p.reg
      let t := a.toNat + b.toNat + k.c.toNat
      let res := BitVec.ofNat 16 t
      ∃ f, exec i s = .next ((s.withRegs fun g => { g.set16 .hl res with f := f, wz := a + 1 }).after 7) ∧
        unpackF f = { s := res.getLsbD 15, z := decide (res = 0), y := res.getLsbD 13,
                      h := (a ^^^ b ^^^ res).getLsbD 12, x := res.getLsbD 11,
                      pv := decide (a.getLsbD 15 = b.getLsbD 15 ∧ res.getLsbD 15 ≠ a.getLsbD 15), n := false,
                      c := t.testBit 16 }) ∧
    (∀ p, i.form = .sbcHL p →
      let a := s.regs.hl
      let b := s.regs.get16 p.reg
      let t : Int := (a.toNat : Int) - b.toNat - k.c.toNat
      let res := BitVec.ofInt 16 t
      ∃ f, exec i s = .next ((s.withRegs fun g => { g.set16 .hl res with f := f, wz := a + 1 }).after 7) ∧
        unpackF f = { s := res.getLsbD 15, z := decide (res = 0), y := res.getLsbD 13,
                      h := (a ^^^ b ^^^ res).getLsbD 12, x := res.getLsbD 11,
                      pv := decide (a.getLsbD 15 ≠ b.getLsbD 15 ∧ res.getLsbD 15 ≠ a.getLsbD 15), n := true,
                      c := decide (t < 0) }) ∧
    (∀ r, (∃ p, i.form = .incRp p ∧ r = p.reg) ∨ (∃ x, i.form = .incXy x ∧ r = x.reg) →
      exec i s = .next ((s.withRegs fun g => g.set16 r (g.get16 r + 1)).after 2)) ∧
    (∀ r, (∃ p, i.form = .decRp p ∧ r = p.reg) ∨ (∃ x, i.form = .decXy x ∧ r = x.reg) →
      exec i s = .next ((s.withRegs fun g => g.set16 r (g.get16 r - 1)).after 2))

/-! ## Rotates and shifts (46_rotate_shift.md) -/

/-- The functions `f(v, cin)` of rules R495 to R502, bit by bit: the result's bits 7 to 0 and the bit shifted out. -/
def Obligations.RotateFunctions : Prop :=
  ∀ (v : Byte) (cin : Bool) (j : Nat), j < 8 →
    let left (b0 : Bool) (r : Byte × Bool) := r.1.getLsbD j = (if j = 0 then b0 else v.getLsbD (j - 1)) ∧ r.2 = v.getLsbD 7
    let right (b7 : Bool) (r : Byte × Bool) := r.1.getLsbD j = (if j = 7 then b7 else v.getLsbD (j + 1)) ∧ r.2 = v.getLsbD 0
    left (v.getLsbD 7) (rotShift .rlc v cin) ∧ right (v.getLsbD 0) (rotShift .rrc v cin) ∧ left cin (rotShift .rl v cin) ∧
      right cin (rotShift .rr v cin) ∧ left false (rotShift .sla v cin) ∧ right (v.getLsbD 7) (rotShift .sra v cin) ∧
      left true (rotShift .sll v cin) ∧ right false (rotShift .srl v cin)

/-- The accumulator rotates, which keep S, Z and PV (rules R490 to R493), and every form of the CB-page rotates and shifts,
copies included, with the flags of rule R494. -/
def Obligations.RotateForms : Prop :=
  ∀ (i : Instr) (s : State),
    let k := unpackF s.regs.f
    (∀ op, (i.form = .rlca ∧ op = .rlc) ∨ (i.form = .rrca ∧ op = .rrc) ∨ (i.form = .rla ∧ op = .rl) ∨
        (i.form = .rra ∧ op = .rr) →
      let r := rotShift op s.regs.a k.c
      ∃ f, exec i s = .next (s.withRegs fun g => { g with a := r.1, f := f }) ∧
        unpackF f = { k with y := r.1.getLsbD 5, h := false, x := r.1.getLsbD 3, n := false, c := r.2 }) ∧
    (let flags (r : Byte × Bool) : Flags :=
      { s := r.1.getLsbD 7, z := decide (r.1 = 0), y := r.1.getLsbD 5, h := false, x := r.1.getLsbD 3, pv := parity r.1,
        n := false, c := r.2 }
    (∀ op z, i.form = .rotR op z →
      let r := rotShift op (s.regs.get8 z.reg) k.c
      ∃ f, unpackF f = flags r ∧ exec i s = .next (s.withRegs fun g => { g.set8 z.reg r.1 with f := f })) ∧
    (∀ op m copy, (i.form = .rotHL op ∧ m = .atHL ∧ copy = none) ∨ (∃ x d, i.form = .rotIdx op x d copy ∧ m = .atIdx x d) →
      s.calmModify m = true → s.room (eaTime 2 m + 7) →
        let r := rotShift op (s.byteAt (s.regs.memEA m)) k.c
        ∃ f, unpackF f = flags r ∧
          exec i s = .next (((s.store (s.regs.memEA m) r.1).withRegs fun g =>
            { (g.noteEA m).copied copy r.1 with f := f }).after (eaTime 2 m + 7))))

/-- RLD and RRD rotate the digits of A and of the byte at HL (rules R503 and R504): the high digit of A and C are kept. -/
def Obligations.DigitRotates : Prop :=
  ∀ (i : Instr) (s : State), s.calmData s.regs.hl = true → s.room 10 →
    let v := s.byteAt s.regs.hl
    let flags (res : Byte) : Flags :=
      { s := res.getLsbD 7, z := decide (res = 0), y := res.getLsbD 5, h := false, x := res.getLsbD 3, pv := parity res,
        n := false, c := s.regs.f.getLsbD 0 }
    (∀ new res : Byte, (i.form = .rld ∧ new.toNat = v.toNat % 16 * 16 + s.regs.a.toNat % 16 ∧
          res.toNat = s.regs.a.toNat / 16 * 16 + v.toNat / 16) ∨
        (i.form = .rrd ∧ new.toNat = s.regs.a.toNat % 16 * 16 + v.toNat / 16 ∧
          res.toNat = s.regs.a.toNat / 16 * 16 + v.toNat % 16) →
      ∃ f, unpackF f = flags res ∧
        exec i s = .next (((s.store s.regs.hl new).withRegs fun g =>
          { g with a := res, f := f, wz := g.hl + 1 }).after 10))

/-! ## Bit operations (47_bit.md) -/

/-- BIT: no register but F (and WZ in the indexed form) is written; Y and X come from the tested register, from WZ, or from the
address (rules R520 to R522). -/
def Obligations.BitTestForms : Prop :=
  ∀ (i : Instr) (s : State) (b : Fin 8),
    let flags (t : Bool) (y x : Bool) : Flags :=
      { s := decide (b = 7) && t, z := !t, y := y, h := true, x := x, pv := !t, n := false, c := s.regs.f.getLsbD 0 }
    (∀ z, i.form = .bitR b z →
      let v := s.regs.get8 z.reg
      ∃ f, unpackF f = flags (v.getLsbD b) (v.getLsbD 5) (v.getLsbD 3) ∧
        exec i s = .next (s.withRegs fun g => { g with f := f })) ∧
    (i.form = .bitHL b → s.calmRead s.regs.hl = true → s.room 4 →
      ∃ f, unpackF f = flags ((s.byteAt s.regs.hl).getLsbD b) (s.regs.wz.getLsbD 13) (s.regs.wz.getLsbD 11) ∧
        exec i s = .next ((s.withRegs fun g => { g with f := f }).after 4)) ∧
    (∀ x d z, i.form = .bitIdx b x d z → s.calmIdle (s.regs.pc - 1) = true → s.calmRead (s.regs.indexed x d) = true →
      s.room 6 →
        let ea := s.regs.indexed x d
        ∃ f, unpackF f = flags ((s.byteAt ea).getLsbD b) (ea.getLsbD 13) (ea.getLsbD 11) ∧
          exec i s = .next ((s.withRegs fun g => { g with f := f, wz := ea }).after 6))

/-- RES and SET write one bit of the operand, copy the result where the form does, and write no flag (rules R523 to R528). -/
def Obligations.BitWriteForms : Prop :=
  ∀ (i : Instr) (s : State) (b : Fin 8) (on : Bool),
    (∀ z, (i.form = .resR b z ∧ on = false) ∨ (i.form = .setR b z ∧ on = true) →
      ∃ v : Byte, (∀ j < 8, v.getLsbD j = if j = b.val then on else (s.regs.get8 z.reg).getLsbD j) ∧
        exec i s = .next (s.withRegs (·.set8 z.reg v))) ∧
    (∀ m copy, (i.form = .resHL b ∧ on = false ∧ m = .atHL ∧ copy = none) ∨
        (i.form = .setHL b ∧ on = true ∧ m = .atHL ∧ copy = none) ∨
        (∃ x d, i.form = .resIdx b x d copy ∧ on = false ∧ m = .atIdx x d) ∨
        (∃ x d, i.form = .setIdx b x d copy ∧ on = true ∧ m = .atIdx x d) →
      s.calmModify m = true → s.room (eaTime 2 m + 7) →
        ∃ v : Byte, (∀ j < 8, v.getLsbD j = if j = b.val then on else (s.byteAt (s.regs.memEA m)).getLsbD j) ∧
          exec i s = .next (((s.store (s.regs.memEA m) v).withRegs fun g => (g.noteEA m).copied copy v).after
            (eaTime 2 m + 7)))

/-! ## Jumps, calls, returns and restarts (48_jump_call.md) -/

/-- JP, JR and DJNZ, taken and not taken: PC and, as each rule says, WZ and B are written, and no flag (rules R540 to R546).
A relative jump counts from PC past the instruction. The last clause says which flag each condition is (30_encoding.md rule
R166). -/
def Obligations.JumpForms : Prop :=
  ∀ (i : Instr) (s : State),
    (∀ nn, i.form = .jpNn nn → exec i s = .next (s.withRegs fun g => { g with pc := nn, wz := nn })) ∧
    (∀ y nn, i.form = .jpCc y nn → exec i s = .next (s.withRegs fun g =>
      { g with wz := nn, pc := if condHolds y g.flags = true then nn else g.pc })) ∧
    (i.form = .jpHL → exec i s = .next (s.withRegs fun g => { g with pc := g.hl })) ∧
    (∀ x, i.form = .jpXy x → exec i s = .next (s.withRegs fun g => { g with pc := g.get16 x.reg })) ∧
    (∀ y e, i.form = .jrCc y e → condHolds y s.regs.flags = false → exec i s = .next s) ∧
    (∀ e, i.form = .djnz e → s.regs.b = 1 → exec i s = .next (s.withRegs fun g => { g with b := 0 })) ∧
    (s.calmIdle (s.regs.pc - 1) = true → s.room 5 →
      (∀ e, i.form = .jr e → exec i s = .next ((s.withRegs fun g =>
        { g with pc := g.pc + sext16 e, wz := g.pc + sext16 e }).after 5)) ∧
      (∀ y e, i.form = .jrCc y e → condHolds y s.regs.flags = true → exec i s = .next ((s.withRegs fun g =>
        { g with pc := g.pc + sext16 e, wz := g.pc + sext16 e }).after 5)) ∧
      (∀ e, i.form = .djnz e → s.regs.b ≠ 1 → exec i s = .next ((s.withRegs fun g =>
        { g with b := g.b - 1, pc := g.pc + sext16 e, wz := g.pc + sext16 e }).after 5))) ∧
    ∀ f : Byte, (condHolds .nz (unpackF f) = !f.getLsbD 6) ∧ (condHolds .z (unpackF f) = f.getLsbD 6) ∧
      (condHolds .nc (unpackF f) = !f.getLsbD 0) ∧ (condHolds .c (unpackF f) = f.getLsbD 0) ∧
      (condHolds .po (unpackF f) = !f.getLsbD 2) ∧ (condHolds .pe (unpackF f) = f.getLsbD 2) ∧
      (condHolds .p (unpackF f) = !f.getLsbD 7) ∧ (condHolds .m (unpackF f) = f.getLsbD 7)

/-- CALL, taken and not taken, and RST: the address after the instruction is pushed, high byte first (rules R547, R548,
R553). RET, taken and not taken, and RETI and RETN, which also copy IFF2 into IFF1 (rules R549 to R552). -/
def Obligations.CallReturnForms : Prop :=
  ∀ (i : Instr) (s : State),
    (∀ y nn, i.form = .callCc y nn → condHolds y s.regs.flags = false →
      exec i s = .next (s.withRegs fun g => { g with wz := nn })) ∧
    (∀ nn, i.form = .callNn nn ∨ (∃ y, i.form = .callCc y nn ∧ condHolds y s.regs.flags = true) →
      s.calmIdle (s.regs.pc - 1) = true → s.calmPush = true → s.room 7 →
        exec i s = .next (((s.pushed s.regs.pc).withRegs fun g => { g with pc := nn, wz := nn }).after 7)) ∧
    (∀ y, i.form = .rst y → s.calmIdle s.regs.ir = true → s.calmPush = true → s.room 7 →
      exec i s = .next (((s.pushed s.regs.pc).withRegs fun g =>
        { g with pc := BitVec.ofNat 16 (8 * y.val), wz := BitVec.ofNat 16 (8 * y.val) }).after 7)) ∧
    (i.form = .ret → s.calmPop = true → s.room 6 → exec i s = .next ((s.withRegs fun g =>
      { g with sp := g.sp + 2, pc := s.wordAt g.sp, wz := s.wordAt g.sp }).after 6)) ∧
    (∀ y, i.form = .retCc y → s.calmIdle s.regs.ir = true →
      (condHolds y s.regs.flags = false → s.room 1 → exec i s = .next (s.after 1)) ∧
      (condHolds y s.regs.flags = true → s.calmPop = true → s.room 7 → exec i s = .next ((s.withRegs fun g =>
        { g with sp := g.sp + 2, pc := s.wordAt g.sp, wz := s.wordAt g.sp }).after 7))) ∧
    (i.form = .reti ∨ (∃ y, i.form = .retn y) → s.calmPop = true → s.room 6 → exec i s = .next ((s.withRegs fun g =>
      { g with sp := g.sp + 2, pc := s.wordAt g.sp, wz := s.wordAt g.sp, iff1 := g.iff2 }).after 6))

/-! ## Input and output (49_io.md, 50_bus.md) -/

/-- IN: the port cycle's byte goes to the register, WZ uses the port as it was, and the forms with (C) write the flags of rule
R572 (rules R571 to R573). OUT: the byte goes to the port, and only WZ changes among the registers; `OUT (n),A` does not carry
into WZ's high byte, and `OUT (C),0` writes 0x00 (rules R574 to R576). -/
def Obligations.PortForms : Prop :=
  ∀ (i : Instr) (s : State),
    (∀ n, i.form = .inAN n →
      let p := mkWord s.regs.a n
      s.calmIn p = true → s.room (s.ioDelay p + 4) →
        exec i s = .next ((s.input p).withRegs fun g => { g with a := s.inputByte p, wz := p + 1 })) ∧
    (let p := s.regs.bc
    let v := s.inputByte p
    let flags : Flags :=
      { s := v.getLsbD 7, z := decide (v = 0), y := v.getLsbD 5, h := false, x := v.getLsbD 3, pv := parity v, n := false,
        c := s.regs.f.getLsbD 0 }
    s.calmIn p = true → s.room (s.ioDelay p + 4) →
      (∀ y, i.form = .inRC y → ∃ f, unpackF f = flags ∧
        exec i s = .next ((s.input p).withRegs fun g => { g.set8 y.reg v with f := f, wz := p + 1 })) ∧
      (i.form = .inFC → ∃ f, unpackF f = flags ∧
        exec i s = .next ((s.input p).withRegs fun g => { g with f := f, wz := p + 1 }))) ∧
    (∀ n, i.form = .outNA n →
      let p := mkWord s.regs.a n
      s.calmOut p s.regs.a = true → s.room (s.ioDelay p + 4) →
        exec i s = .next ((s.output p s.regs.a).withRegs fun g => { g with wz := mkWord g.a (n + 1) })) ∧
    (∀ v, (∃ y, i.form = .outCR y ∧ v = s.regs.get8 y.reg) ∨ (i.form = .outC0 ∧ v = 0x00) →
      s.calmOut s.regs.bc v = true → s.room (s.ioDelay s.regs.bc + 4) →
        exec i s = .next ((s.output s.regs.bc v).withRegs fun g => { g with wz := g.bc + 1 }))

/-- The flags of a block input or output iteration that moved `v`, left `b` in B and summed to `k` (rule R577). -/
def Obligations.BlockIoFlags : Prop :=
  ∀ v b addend : Byte,
    let k := v.toNat + addend.toNat
    unpackF (ioBlockFlags v b addend).pack =
      { s := b.getLsbD 7, z := decide (b = 0), y := b.getLsbD 5, h := decide (255 < k), x := b.getLsbD 3,
        pv := parity (BitVec.ofNat 8 (k % 8) ^^^ b), n := v.getLsbD 7, c := decide (255 < k) }

/-- INI, IND, INIR and INDR (rules R577 to R581): the port is BC before B counts down, the byte is stored at HL, and a repeat
goes back to the ED byte and takes 5 T-states more. -/
def Obligations.BlockInput : Prop :=
  ∀ (i : Instr) (s : State) (dir : Dir) (rep : Bool), i.form = .inBlock dir rep → s.calmExec i.form = true →
    s.room (s.execTime i.form) →
      let inc : Word := match dir with | .up => 1 | .down => -1
      let v := (s.after 1).inputByte s.regs.bc
      let again := rep = true ∧ s.regs.b - 1 ≠ 0
      let stored := ((s.after 1).input s.regs.bc).store s.regs.hl v
      let moved (g : Regs) : Regs :=
        { ({ g with b := g.b - 1 }.set16 .hl (g.hl + inc)).setFlags (ioBlockFlags v (g.b - 1) (g.c + lo inc)) with
          wz := g.bc + inc }
      (again → exec i s = .next ((stored.withRegs fun g => { moved g with pc := g.pc - 2 }).after 8)) ∧
        (¬again → exec i s = .next ((stored.withRegs moved).after 3))

/-- OUTI, OUTD, OTIR and OTDR (rules R577, R582 to R585): B counts down before the port cycle, so the port's high byte is the
new B; the flags use L as stepped. -/
def Obligations.BlockOutput : Prop :=
  ∀ (i : Instr) (s : State) (dir : Dir) (rep : Bool), i.form = .outBlock dir rep → s.calmExec i.form = true →
    s.room (s.execTime i.form) →
      let inc : Word := match dir with | .up => 1 | .down => -1
      let v := s.byteAt s.regs.hl
      let p := mkWord (s.regs.b - 1) s.regs.c
      let again := rep = true ∧ s.regs.b - 1 ≠ 0
      let moved (g : Regs) : Regs :=
        { ({ g with b := g.b - 1 }.set16 .hl (g.hl + inc)).setFlags (ioBlockFlags v (g.b - 1) (lo (g.hl + inc))) with
          wz := p + inc }
      (again → exec i s = .next ((((s.after 4).output p v).withRegs fun g => { moved g with pc := g.pc - 2 }).after 5)) ∧
        (¬again → exec i s = .next (((s.after 4).output p v).withRegs moved))

/-- Every constructor of `Instr` completes: where its cycles are calm and the cycle counter has room, `exec` answers a next
state, later by exactly the instruction's T-states. -/
def Obligations.EveryInstructionCompletes : Prop :=
  ∀ (i : Instr) (s : State), s.calmExec i.form = true → s.room (s.execTime i.form) →
    ∃ t, exec i s = .next t ∧ t.cc = s.cc + s.execTime i.form

/-- The byte an input resolves to, bit by bit: the AND of what the matching devices drive there, or the floating bus's bit
where none drives (50_bus.md rules R603 and R607); every device that matched takes its new state. -/
def Obligations.InputMerge : Prop :=
  ∀ (s : State) (p : Word), (∀ l ∈ s.chain, (l.answerIn s.cc p).effects = []) →
    ∃ v : Byte, busIn p s = .ok v { s with chain := s.chain.map fun l => { l with dev := (l.answerIn s.cc p).dev } } ∧
      ∀ j < 8,
        ((∃ l ∈ s.chain, (l.answerIn s.cc p).drv.getLsbD j = true) →
          (v.getLsbD j = true ↔ ∀ l ∈ s.chain, (l.answerIn s.cc p).drv.getLsbD j = true →
            (l.answerIn s.cc p).v.getLsbD j = true)) ∧
        ((∀ l ∈ s.chain, (l.answerIn s.cc p).drv.getLsbD j = false) →
          v.getLsbD j = (s.cfg.floatingBusByte s.cc).getLsbD j)

/-- `ReplayIn` in the five replay states (rule R608): playing takes the recorded byte, or loses sync and keeps the live byte;
recording keeps the live byte and appends it. -/
def Obligations.ReplayInput : Prop :=
  ∀ (s : State) (v : Byte),
    (∀ fr b, s.replayMode = .playing → s.stream[s.frameIx]? = some fr → fr.inputs[s.byteIx]? = some b →
      replayIn v s = .ok b { s with byteIx := s.byteIx + 1 }) ∧
    (∀ fr, s.replayMode = .playing → s.stream[s.frameIx]? = some fr → fr.inputs.length ≤ s.byteIx →
      replayIn v s = .ok v { s with replayMode := .outOfSync }) ∧
    (s.replayMode = .recording → replayIn v s = .ok v { s with recBytes := s.recBytes ++ [v] }) ∧
    (s.replayMode = .idle ∨ s.replayMode = .endOfFile ∨ s.replayMode = .outOfSync → replayIn v s = .ok v s)

/-- What a handler's effects may not do (50_bus.md rules R601 and R622, 70_reset_and_hazards.md rule R772), and that a patch
handler's register writes and any handler's NMI request take effect at once. -/
def Obligations.EffectRules : Prop :=
  ∀ (s : State) (i : Nat) (patching : Bool) (ws : List RegWrite),
    applyEffect i false (.setRegs ws) s = .error (.refused .effectNotAllowed) s ∧
      applyEffect i true (.setRegs ws) s = .ok () (s.withRegs (applyRegWrites ws)) ∧
      applyEffect i patching .requestNMI s = .ok () (s.withRegs fun g => { g with nmiPending := true }) ∧
      applyEffect i patching .hostOnly s = .error (.refused .notSuspended) s ∧
      applyEffect 0 patching (.wantPaging false) s = .error (.refused .badPaging) s ∧
      ∀ tag l, s.chain[i]? = some l → l.handleOf tag = none → applyEffect i patching (.unmap tag) s = .ok () s

/-! ## Scheduler and replay (55_scheduler_replay.md) -/

/-- `Flyback()` where the frame-end handlers have no effects (rule R650): the counters are rebased by the new frame's length,
and the replay takes its turn on the rebased state. A bad geometry is refused (rule R653). `AudioBlock()` under the same
proviso moves the boundary on (rule R651), strictly up (00_scope.md rule R7). -/
def Obligations.FrameAndAudioBoundaries : Prop :=
  ∀ s : State,
    let r := s.cfg.frameFlyback s.cc
    (s.cfg.geometryOk r = false → ∃ t, flyback s = .error (.refused .badFrameGeometry) t) ∧
    (s.cfg.geometryOk r = true → (∀ l ∈ s.chain, (l.handlers.frameEnd.call (.frameEnd l.dev s.cc)).effects = []) →
      flyback s = replayFlyback s.ic { s with
        callouts := s.callouts ++ [.frameFlyback s.cc r]
        chain := s.chain.map fun l => { l with dev := (l.handlers.frameEnd.call (.frameEnd l.dev s.cc)).dev }
        frameCount := s.frameCount + 1
        cc := s.cc - r
        target := s.target - r
        audioCc := s.audioCc - r
        ic := 0
        cpf := r }) ∧
    (let time := s.cfg.audioTimeAt s.audioCc
    (∀ l ∈ s.chain, (l.handlers.audioBlockEnd.call (.audioBlockEnd l.dev time)).effects = []) →
      audioBlock s = .ok () { s with
        callouts := s.callouts ++ [.audioBlockEnd time]
        chain := s.chain.map fun l => { l with dev := (l.handlers.audioBlockEnd.call (.audioBlockEnd l.dev time)).dev }
        audioCc := s.cfg.nextAudioCc s.audioCc }) ∧
    s.audioCc < s.cfg.nextAudioCc s.audioCc

/-- `ReplayFlyback` (rules R666 and R667): recording closes a frame and may take a snapshot; playing moves to the next frame,
ends the file after the last, and loses sync where a recorded snapshot differs from the state. What is compared is the model's
choice in two points: the run arguments and `stack_break` of rule R44 are left out (log entry 8), and blocks created, freed
or resized since make a difference (log entry 28). -/
def Obligations.ReplayAtFlyback : Prop :=
  ∀ (s : State) (closeIc : Nat),
    let closed := s.stream ++ [{ length := closeIc, inputs := s.recBytes, snapshot := s.recSnap }]
    let next : State := { s with frameIx := s.frameIx + 1, byteIx := 0 }
    (s.replayMode = .idle → replayFlyback closeIc s = .ok () s) ∧
    (s.replayMode = .recording → replayFlyback closeIc s = .ok () { s with
      stream := closed
      recBytes := []
      recSnap := if closed.length % s.cfg.snapshotInterval = 0 then some s.save else none }) ∧
    (s.replayMode = .playing → s.frameIx + 1 = s.stream.length →
      replayFlyback closeIc s = .ok () { next with replayMode := .endOfFile }) ∧
    (∀ fr, s.replayMode = .playing → s.stream[s.frameIx + 1]? = some fr →
      (fr.snapshot = none → replayFlyback closeIc s = .ok () next) ∧
      (∀ snap, fr.snapshot = some snap →
        (s.regs = snap.regs ∧ s.cc = snap.cc ∧ s.ic = snap.ic ∧ s.cpf = snap.cpf ∧
          s.mem.map (fun b => (b.id, b.len, b.data)) = snap.blocks.map (fun b => (b.id, b.len, b.data)) →
            replayFlyback closeIc s = .ok () next) ∧
        (¬(s.regs = snap.regs ∧ s.cc = snap.cc ∧ s.ic = snap.ic ∧ s.cpf = snap.cpf ∧
          s.mem.map (fun b => (b.id, b.len, b.data)) = snap.blocks.map (fun b => (b.id, b.len, b.data))) →
            replayFlyback closeIc s = .ok () { next with replayMode := .outOfSync })))

/-- One pass of the scheduler loop outside playback (rule R643): the flyback before the audio block, both before the target,
and then a sub-run to the nearest bound with the region's mode flags (rules R641 and R642). -/
def Obligations.SchedulerLoopLive : Prop :=
  ∀ s : State, s.replayMode = .idle ∨ s.replayMode = .recording →
    (s.cpf ≤ s.cc → schedulerStep s = flyback s) ∧
    (s.cc < s.cpf → s.audioCc ≤ s.cc → schedulerStep s = audioBlock s) ∧
    (s.cc < s.cpf → s.cc < s.audioCc → s.target ≤ s.cc →
      schedulerStep s = .ok () { s with results := s.results ++ [.done], phase := .suspended }) ∧
    (s.cc < s.cpf → s.cc < s.audioCc → s.cc < s.target →
      ∃ (bound : Int) (wait : Bool),
        schedulerStep s = .ok () { s with
          targetCc := min s.target (min bound s.audioCc)
          targetIc := 4294967295
          mode := { wait := wait, brk := true, patch := true, mmio := true, video := true, log := true }
          phase := .running true } ∧
        (s.cc < s.cfg.cwStart → bound = s.cfg.cwStart ∧ wait = false) ∧
        (s.cfg.cwStart ≤ s.cc → s.cc < s.cfg.cwEnd → bound = s.cfg.cwEnd ∧ wait = true) ∧
        (s.cfg.cwStart ≤ s.cc → s.cfg.cwEnd ≤ s.cc → bound = s.cpf ∧ wait = false))

/-- One pass of the scheduler loop in playback and after it (rules R641 to R643 and R664 b to d): a frame ends where the
instruction count says, on time and with its input consumed, or sync is lost; inside the frame and its slack an audio block
that is due comes before the target, and else a sub-run goes to the nearest bound and to the frame's instruction count. The
two final states answer the host. -/
def Obligations.SchedulerLoopReplay : Prop :=
  ∀ s : State,
    (s.replayMode = .outOfSync →
      schedulerStep s = .ok () { s with results := s.results ++ [.outOfSync], phase := .suspended }) ∧
    (s.replayMode = .endOfFile →
      schedulerStep s = .ok () { s with results := s.results ++ [.endOfFile], phase := .suspended }) ∧
    (∀ fr, s.replayMode = .playing → s.stream[s.frameIx]? = some fr →
      (s.ic = fr.length → s.cpf ≤ s.cc → s.byteIx = fr.inputs.length → schedulerStep s = flyback s) ∧
      (s.ic = fr.length → s.cc < s.cpf ∨ s.byteIx ≠ fr.inputs.length →
        schedulerStep s = .ok () { s with replayMode := .outOfSync }) ∧
      (s.ic ≠ fr.length → s.cpf + s.cfg.replaySlack ≤ s.cc →
        schedulerStep s = .ok () { s with replayMode := .outOfSync }) ∧
      (s.ic ≠ fr.length → s.cc < s.cpf + s.cfg.replaySlack →
        (s.audioCc ≤ s.cc → schedulerStep s = audioBlock s) ∧
        (s.cc < s.audioCc → s.target ≤ s.cc →
          schedulerStep s = .ok () { s with results := s.results ++ [.done], phase := .suspended }) ∧
        (s.cc < s.audioCc → s.cc < s.target →
          ∃ (bound : Int) (wait : Bool),
            schedulerStep s = .ok () { s with
              targetCc := min s.target (min bound s.audioCc)
              targetIc := fr.length
              mode := { wait := wait, brk := true, patch := true, mmio := true, video := true, log := true }
              phase := .running true } ∧
            s.cc < bound ∧
            (s.cc < s.cfg.cwStart → bound = s.cfg.cwStart ∧ wait = false) ∧
            (s.cfg.cwStart ≤ s.cc → s.cc < s.cfg.cwEnd → bound = s.cfg.cwEnd ∧ wait = true) ∧
            (s.cfg.cwStart ≤ s.cc → s.cfg.cwEnd ≤ s.cc → bound = s.cpf + s.cfg.replaySlack ∧ wait = false))))

/-- The replay operations of the host (rules R660 to R663, R668): the transitions the table has, and the refusal of the others.
Three points are the model's: which snapshots load (log entry 14), that StopRecording clears `rec_snap` with `rec_bytes` (log
entry 23), and that StartPlaying forgets the pending exit and the exec-breakpoint mark as a load does (log entry 27). -/
def Obligations.ReplayTransitions : Prop :=
  ∀ s : State,
    let done (t : State) : State := { t with results := t.results ++ [.done], phase := .suspended }
    (startRecording s = if s.replayMode = .idle ∨ s.replayMode = .endOfFile then
        .ok () (done { s with stream := [], recBytes := [], replayMode := .recording, recSnap := some s.save })
      else .error (.refused .badReplayTransition) s) ∧
    (stopRecording s = if s.replayMode = .recording then
        .ok () (done { s with replayMode := .idle, recBytes := [], recSnap := none })
      else .error (.refused .badReplayTransition) s) ∧
    (hostOp .holdOutOfSync s = if s.replayMode = .endOfFile then .ok () (done { s with replayMode := .outOfSync })
      else .error (.refused .badReplayTransition) s) ∧
    (hostOp .goLive s = if s.replayMode = .outOfSync then .ok () (done { s with replayMode := .idle })
      else .error (.refused .badReplayTransition) s) ∧
    ∀ (stream : List ReplayFrame) (k : Nat),
      ((s.replayMode ≠ .idle ∧ s.replayMode ≠ .outOfSync) ∨ (∀ fr, stream[k]? = some fr → fr.snapshot = none) →
        startPlaying stream k s = .error (.refused .badReplayTransition) s) ∧
      (∀ fr snap, s.replayMode = .idle ∨ s.replayMode = .outOfSync → stream[k]? = some fr → fr.snapshot = some snap →
        s.loadOk snap = true →
          startPlaying stream k s = .ok () (done { s.load snap with
            stream := stream, frameIx := k, byteIx := 0, replayMode := .playing }))

/-! ## The host's operations (70_reset_and_hazards.md, 50_bus.md) -/

/-- Saving and loading at once restores the machine (rules R753 and R754); a load that fails changes nothing. Only the exits
pending at the boundary are forgotten. Save and the debugger's reads answer and change nothing (rules R754 and R772). Which
snapshots load is log entry 14's. -/
def Obligations.SaveThenLoad : Prop :=
  ∀ s : State,
    let answered (r : HostResult) : State := { s with results := s.results ++ [r], phase := .suspended }
    (s.Inv → pagingOk s.chain = true → (∀ l ∈ s.chain, l.badPattern = false) → s.cfg.geometryOk s.cpf = true →
      inI32 s.cc = true → s.ic < 4294967296 → ∃ n, loadSnapshot (some s.save) s = .ok () { s with
        pendingExit := none, execBpSkip := none, nextHandle := n, results := s.results ++ [.loaded], phase := .suspended }) ∧
    loadSnapshot none s = .ok () (answered .loadFailed) ∧
    (∀ d, s.loadOk d = false → loadSnapshot (some d) s = .ok () (answered .loadFailed)) ∧
    hostOp .save s = .ok () (answered (.saved s.save)) ∧
    hostOp (.debugRead .regs) s = .ok () (answered (.read (.regs s.regs))) ∧
    hostOp (.debugRead .stackBreak) s = .ok () (answered (.read (.stackBreak s.stackBreak))) ∧
    hostOp (.debugRead .accessLog) s = .ok () (answered (.read (.accessLog s.accessLog))) ∧
    ∀ b k c, s.mem.cell? { block := b, base := k } = some c →
      hostOp (.debugRead (.cell b k)) s = .ok () (answered (.read (.cell c.data c.flags)))

/-- `Attach` and `Detach` (50_bus.md rules R631 and R632): the refusals; the link inserted where its power-on handler has no
effects, hidden exactly when a link behind it wants; and the link removed, after `StopWanting` if it wants, with its overlay
and its own mappings gone from every page, or refused where that would leave a page without a mapping. That a bad pattern is
refused before a bad position, and an index past the chain's end as `L[0]` is, are the model's choices (log entry 20). -/
def Obligations.AttachRules : Prop :=
  ∀ s : State,
    (∀ (pos : Nat) (l : Link),
      (l.badPattern = true → attach pos l s = .error (.refused .badPattern) s) ∧
      (l.badPattern = false → pos = 0 ∨ s.chain.length < pos → attach pos l s = .error (.refused .badPosition) s) ∧
      (l.badPattern = false → 0 < pos → pos ≤ s.chain.length →
        (l.handlers.powerOn.call (.powerOn l.dev s.cc)).effects = [] →
          attach pos l s = .ok () { s with
            chain := s.chain.take pos ++
              { l with dev := (l.handlers.powerOn.call (.powerOn l.dev s.cc)).dev, want := false,
                       hidden := (s.chain.drop pos).any (·.want), maps := [], ovl := [] } :: s.chain.drop pos
            results := s.results ++ [.done]
            phase := .suspended })) ∧
    (∀ i, i = 0 ∨ s.chain.length ≤ i → detach i s = .error (.refused .badPosition) s) ∧
    ∀ (i : Nat) (l : Link) (t : State), 0 < i → s.chain[i]? = some l →
      (if l.want then stopWanting i s = .ok () t else t = s) →
        let handles := l.ovl ++ l.maps.map (·.2)
        handles.Nodup → (∀ h ∈ handles, ∃ stack ∈ t.pages, ∃ x ∈ stack, x.handle = h) →
          ((∀ stack ∈ t.pages, ∃ x ∈ stack, x.handle ∉ handles) →
            detach i s = .ok () { t with
              pages := t.pages.map fun stack => stack.filter fun x => decide (x.handle ∉ handles)
              chain := t.chain.eraseIdx i
              results := t.results ++ [.done]
              phase := .suspended }) ∧
          ((∃ stack ∈ t.pages, stack ≠ [] ∧ ∀ x ∈ stack, x.handle ∈ handles) →
            ∃ u, detach i s = .error (.refused .badUnmap) u)

/-- A block that some mapping refers to is neither freed nor resized, and another block is (rule R770). SINK is never freed;
that the refusal's name is then FreeWhileMapped, mapping or none, is the model's (log entry 21). -/
def Obligations.StorageLifetime : Prop :=
  ∀ (s : State) (id n : Nat) (b : Block), s.mem.block? id = some b →
    (id = sinkId → freeBlock id s = .error (.refused .freeWhileMapped) s) ∧
    ((∃ stack ∈ s.pages, ∃ x ∈ stack, x.refersTo id = true) →
      freeBlock id s = .error (.refused .freeWhileMapped) s ∧
        (0 < n → resizeBlock id n s = .error (.refused .freeWhileMapped) s)) ∧
    (id ≠ sinkId → (∀ stack ∈ s.pages, ∀ x ∈ stack, x.refersTo id = false) →
      freeBlock id s = .ok () { s with mem := s.mem.filter (·.id != id), results := s.results ++ [.done], phase := .suspended } ∧
        (0 < n → resizeBlock id n s = .ok () { s with
          mem := s.mem.update id (·.resize n), results := s.results ++ [.done], phase := .suspended }))

/-- A CPU reset writes the fields rule R80 marks for it and keeps the rest; the devices' reset handlers run in chain order
(rule R751), here with no effects beyond their own states. -/
def Obligations.ResetOperation : Prop :=
  ∀ s : State, (∀ l ∈ s.chain, (l.handlers.reset.call (.reset l.dev (s.cfg.audioTimeAt s.cc) s.cc)).effects = []) →
    hostOp .reset s = .ok () { s with
      regs := { s.regs with
        pc := 0x0000, i := 0x00, r := 0x00, iff1 := false, iff2 := false, im := .im0, halted := false, intBlock := false
        nmiPending := false }
      pendingExit := none
      execBpSkip := none
      chain := s.chain.map fun l =>
        { l with dev := (l.handlers.reset.call (.reset l.dev (s.cfg.audioTimeAt s.cc) s.cc)).dev }
      results := s.results ++ [.done]
      phase := .suspended }
end

