-- ==== Sys2Proof/Laws/Action.lean ====
section
/-! SUPPORT. How actions run: one equation per way of building an action, and what each small action does. -/

namespace Sys2Proof.Machine

variable {α β : Type}

theorem run_bind (m : M α) (f : α → M β) (s : State) :
    (m >>= f) s = match m s with
      | .ok a t => f a t
      | .error e t => .error e t := by
  change EStateM.bind m f s = _
  unfold EStateM.bind
  cases m s <;> rfl

theorem run_bind_ok {m : M α} {f : α → M β} {s t : State} {a : α} (h : m s = .ok a t) : (m >>= f) s = f a t := by
  rw [run_bind, h]

theorem run_pure (a : α) (s : State) : (pure a : M α) s = .ok a s := rfl
theorem run_get (s : State) : (get : M State) s = .ok s s := rfl
theorem run_set (t s : State) : (set t : M PUnit) s = .ok ⟨⟩ t := rfl
theorem run_modify (f : State → State) (s : State) : (modify f : M PUnit) s = .ok ⟨⟩ (f s) := rfl
theorem run_fault (r : Fault) (s : State) : (M.fault r : M α) s = .error (.fault r) s := rfl
theorem run_refuse (r : Refusal) (s : State) : (M.refuse r : M α) s = .error (.refused r) s := rfl
theorem run_theRegs (s : State) : theRegs s = .ok s.regs s := rfl
theorem run_modRegs (f : Regs → Regs) (s : State) : modRegs f s = .ok () (s.withRegs f) := rfl
theorem run_getReg8 (r : Reg8) (s : State) : getReg8 r s = .ok (s.regs.get8 r) s := rfl
theorem run_putReg8 (r : Reg8) (v : Byte) (s : State) : putReg8 r v s = .ok () (s.withRegs (·.set8 r v)) := rfl
theorem run_getReg16 (r : Reg16) (s : State) : getReg16 r s = .ok (s.regs.get16 r) s := rfl
theorem run_putReg16 (r : Reg16) (w : Word) (s : State) : putReg16 r w s = .ok () (s.withRegs (·.set16 r w)) := rfl
theorem run_testCond (cond : Cond) (s : State) : testCond cond s = .ok (condHolds cond s.regs.flags) s := rfl
theorem run_jumpTo (w : Word) (s : State) : jumpTo w s = .ok () (s.withRegs fun g => { g with pc := w, wz := w }) := rfl
theorem run_refresh (s : State) : refresh s = .ok () (s.withRegs fun g => { g with r := bumpR g.r }) := rfl
theorem run_stepPc (s : State) : stepPc s = .ok () (s.withRegs fun g => { g with pc := g.pc + 1 }) := rfl
theorem run_callOut (c : Callout) (s : State) : callOut c s = .ok () { s with callouts := s.callouts ++ [c] } := rfl

/-- `tick` advances `cc` where there is room, and faults where there is none. -/
theorem run_tick (k : Int) (s : State) :
    tick k s = if 2147483647 < s.cc + k then .error (.fault .cycleCounterOverflow) s else .ok () (s.after k) := by
  unfold tick
  rw [run_bind_ok (run_get s)]
  split <;> rfl

theorem run_tick_room {k : Int} {s : State} (h : s.room k) : tick k s = .ok () (s.after k) := by
  rw [run_tick, if_neg (by simpa [State.room] using h)]

theorem perform_ok {m : M Unit} {s t : State} (h : m s = .ok () t) : perform m s = .next t := by
  unfold perform
  rw [h]

theorem perform_next_iff {m : M Unit} {s t : State} : perform m s = .next t ↔ m s = .ok () t := by
  unfold perform
  split
  · next h => simp [h]
  · next h => simp [h]
  · next h => simp [h]

/-- An instruction answers what its form's operation leaves. -/
theorem exec_of_form {i : Instr} {f : Form} {s t : State} (hi : i.form = f) (h : runForm f s = .ok () t) :
    exec i s = .next t := by
  rw [exec_eq_runForm, hi, perform_ok h]

end Sys2Proof.Machine
end

