-- ==== Sys2Proof/Laws/State.lean ====
section
/-! SUPPORT. One lemma per field per named update of the state and of its parts, so that no proof unfolds a record update. -/

namespace Sys2Proof.Machine

/-! ## State -/

@[simp] theorem State.after_regs (s : State) (k : Int) : (s.after k).regs = s.regs := rfl
@[simp] theorem State.after_cc (s : State) (k : Int) : (s.after k).cc = s.cc + k := rfl
@[simp] theorem State.after_mem (s : State) (k : Int) : (s.after k).mem = s.mem := rfl
@[simp] theorem State.after_pages (s : State) (k : Int) : (s.after k).pages = s.pages := rfl
@[simp] theorem State.after_cfg (s : State) (k : Int) : (s.after k).cfg = s.cfg := rfl
@[simp] theorem State.after_mode (s : State) (k : Int) : (s.after k).mode = s.mode := rfl
@[simp] theorem State.after_chain (s : State) (k : Int) : (s.after k).chain = s.chain := rfl
@[simp] theorem State.after_ic (s : State) (k : Int) : (s.after k).ic = s.ic := rfl
@[simp] theorem State.after_latch (s : State) (k : Int) : (s.after k).latch = s.latch := rfl
@[simp] theorem State.after_replayMode (s : State) (k : Int) : (s.after k).replayMode = s.replayMode := rfl
@[simp] theorem State.after_after (s : State) (j k : Int) : (s.after j).after k = s.after (j + k) := by
  simp [State.after, Int.add_assoc]

@[simp] theorem State.withRegs_regs (s : State) (f : Regs → Regs) : (s.withRegs f).regs = f s.regs := rfl
@[simp] theorem State.withRegs_cc (s : State) (f : Regs → Regs) : (s.withRegs f).cc = s.cc := rfl
@[simp] theorem State.withRegs_mem (s : State) (f : Regs → Regs) : (s.withRegs f).mem = s.mem := rfl
@[simp] theorem State.withRegs_pages (s : State) (f : Regs → Regs) : (s.withRegs f).pages = s.pages := rfl
@[simp] theorem State.withRegs_cfg (s : State) (f : Regs → Regs) : (s.withRegs f).cfg = s.cfg := rfl
@[simp] theorem State.withRegs_mode (s : State) (f : Regs → Regs) : (s.withRegs f).mode = s.mode := rfl
@[simp] theorem State.withRegs_chain (s : State) (f : Regs → Regs) : (s.withRegs f).chain = s.chain := rfl
@[simp] theorem State.withRegs_ic (s : State) (f : Regs → Regs) : (s.withRegs f).ic = s.ic := rfl
@[simp] theorem State.withRegs_latch (s : State) (f : Regs → Regs) : (s.withRegs f).latch = s.latch := rfl
@[simp] theorem State.withRegs_replayMode (s : State) (f : Regs → Regs) : (s.withRegs f).replayMode = s.replayMode := rfl
@[simp] theorem State.withRegs_withRegs (s : State) (f g : Regs → Regs) :
    (s.withRegs f).withRegs g = s.withRegs fun r => g (f r) := rfl
@[simp] theorem State.after_withRegs (s : State) (k : Int) (f : Regs → Regs) :
    (s.after k).withRegs f = (s.withRegs f).after k := rfl

@[simp] theorem State.store_regs (s : State) (a : Word) (v : Byte) : (s.store a v).regs = s.regs := rfl
@[simp] theorem State.store_cc (s : State) (a : Word) (v : Byte) : (s.store a v).cc = s.cc := rfl
@[simp] theorem State.store_mem (s : State) (a : Word) (v : Byte) : (s.store a v).mem = s.stored a v := rfl
@[simp] theorem State.store_pages (s : State) (a : Word) (v : Byte) : (s.store a v).pages = s.pages := rfl
@[simp] theorem State.store_cfg (s : State) (a : Word) (v : Byte) : (s.store a v).cfg = s.cfg := rfl
@[simp] theorem State.store_mode (s : State) (a : Word) (v : Byte) : (s.store a v).mode = s.mode := rfl
@[simp] theorem State.store_chain (s : State) (a : Word) (v : Byte) : (s.store a v).chain = s.chain := rfl
@[simp] theorem State.store_ic (s : State) (a : Word) (v : Byte) : (s.store a v).ic = s.ic := rfl
@[simp] theorem State.store_latch (s : State) (a : Word) (v : Byte) : (s.store a v).latch = s.latch := rfl
@[simp] theorem State.after_store (s : State) (k : Int) (a : Word) (v : Byte) :
    (s.after k).store a v = (s.store a v).after k := rfl
@[simp] theorem State.withRegs_store (s : State) (f : Regs → Regs) (a : Word) (v : Byte) :
    (s.withRegs f).store a v = (s.store a v).withRegs f := rfl

/-! ## Storage -/

@[simp] theorem Block.setData_id (b : Block) (i : Nat) (v : Byte) : (b.setData i v).id = b.id := rfl
@[simp] theorem Block.setData_len (b : Block) (i : Nat) (v : Byte) : (b.setData i v).len = b.len := rfl
@[simp] theorem Block.setData_flags (b : Block) (i : Nat) (v : Byte) : (b.setData i v).flags = b.flags := rfl
@[simp] theorem Block.setData_baseFlags (b : Block) (i : Nat) (v : Byte) : (b.setData i v).baseFlags = b.baseFlags := rfl
@[simp] theorem Block.setFlags_id (b : Block) (i : Nat) (f : CellFlags) : (b.setFlags i f).id = b.id := rfl
@[simp] theorem Block.setFlags_len (b : Block) (i : Nat) (f : CellFlags) : (b.setFlags i f).len = b.len := rfl
@[simp] theorem Block.setFlags_data (b : Block) (i : Nat) (f : CellFlags) : (b.setFlags i f).data = b.data := rfl
@[simp] theorem Block.setFlags_baseFlags (b : Block) (i : Nat) (f : CellFlags) : (b.setFlags i f).baseFlags = b.baseFlags :=
  rfl
@[simp] theorem Block.resize_id (b : Block) (n : Nat) : (b.resize n).id = b.id := rfl
@[simp] theorem Block.resize_len (b : Block) (n : Nat) : (b.resize n).len = n := rfl
@[simp] theorem Block.load_id (b : Block) (d : BlockSnap) : (b.load d).id = b.id := rfl
@[simp] theorem Block.load_len (b : Block) (d : BlockSnap) : (b.load d).len = b.len := rfl
@[simp] theorem Block.load_data (b : Block) (d : BlockSnap) : (b.load d).data = d.data := rfl
@[simp] theorem Block.load_flags (b : Block) (d : BlockSnap) : (b.load d).flags = b.flags := rfl

/-! ## Links -/

@[simp] theorem Link.fresh_want (l : Link) (w h : Bool) : (l.fresh w h).want = w := rfl
@[simp] theorem Link.fresh_hidden (l : Link) (w h : Bool) : (l.fresh w h).hidden = h := rfl
@[simp] theorem Link.fresh_maps (l : Link) (w h : Bool) : (l.fresh w h).maps = [] := rfl
@[simp] theorem Link.fresh_ovl (l : Link) (w h : Bool) : (l.fresh w h).ovl = [] := rfl
@[simp] theorem Link.fresh_dev (l : Link) (w h : Bool) : (l.fresh w h).dev = l.dev := rfl
@[simp] theorem Link.fresh_handlers (l : Link) (w h : Bool) : (l.fresh w h).handlers = l.handlers := rfl

/-! ## Registers -/

@[simp] theorem Regs.setFlags_f (g : Regs) (k : Flags) : (g.setFlags k).f = k.pack := rfl
@[simp] theorem Regs.setFlags_a (g : Regs) (k : Flags) : (g.setFlags k).a = g.a := rfl
@[simp] theorem Regs.setFlags_pc (g : Regs) (k : Flags) : (g.setFlags k).pc = g.pc := rfl
@[simp] theorem Regs.setFlags_sp (g : Regs) (k : Flags) : (g.setFlags k).sp = g.sp := rfl
@[simp] theorem Regs.setFlags_get8 (g : Regs) (k : Flags) (r : Reg8) : (g.setFlags k).get8 r = g.get8 r := by cases r <;> rfl
@[simp] theorem Regs.setAF_a (g : Regs) (r : Byte × Flags) : (g.setAF r).a = r.1 := rfl
@[simp] theorem Regs.setAF_f (g : Regs) (r : Byte × Flags) : (g.setAF r).f = r.2.pack := rfl
@[simp] theorem Regs.setAF_pc (g : Regs) (r : Byte × Flags) : (g.setAF r).pc = g.pc := rfl
@[simp] theorem Regs.setAF_sp (g : Regs) (r : Byte × Flags) : (g.setAF r).sp = g.sp := rfl
@[simp] theorem Regs.set8_f (g : Regs) (r : Reg8) (v : Byte) : (g.set8 r v).f = g.f := by cases r <;> rfl
@[simp] theorem Regs.set8_pc (g : Regs) (r : Reg8) (v : Byte) : (g.set8 r v).pc = g.pc := by cases r <;> rfl
@[simp] theorem Regs.set8_sp (g : Regs) (r : Reg8) (v : Byte) : (g.set8 r v).sp = g.sp := by cases r <;> rfl
@[simp] theorem Regs.set8_wz (g : Regs) (r : Reg8) (v : Byte) : (g.set8 r v).wz = g.wz := by cases r <;> rfl
@[simp] theorem Regs.set8_i (g : Regs) (r : Reg8) (v : Byte) : (g.set8 r v).i = g.i := by cases r <;> rfl
@[simp] theorem Regs.set8_r (g : Regs) (r : Reg8) (v : Byte) : (g.set8 r v).r = g.r := by cases r <;> rfl
@[simp] theorem Regs.set16_pc (g : Regs) (r : Reg16) (w : Word) : (g.set16 r w).pc = g.pc := by cases r <;> rfl
@[simp] theorem Regs.set16_wz (g : Regs) (r : Reg16) (w : Word) : (g.set16 r w).wz = g.wz := by cases r <;> rfl
@[simp] theorem Regs.set16_i (g : Regs) (r : Reg16) (w : Word) : (g.set16 r w).i = g.i := by cases r <;> rfl
@[simp] theorem Regs.set16_r (g : Regs) (r : Reg16) (w : Word) : (g.set16 r w).r = g.r := by cases r <;> rfl

@[simp] theorem hi_mkWord (h l : Byte) : hi (mkWord h l) = h := by
  simp only [hi, mkWord]
  exact BitVec.extractLsb'_append_eq_left

@[simp] theorem lo_mkWord (h l : Byte) : lo (mkWord h l) = l := by
  simp only [lo, mkWord]
  exact BitVec.extractLsb'_append_eq_right

@[simp] theorem mkWord_hi_lo (w : Word) : mkWord (hi w) (lo w) = w := by
  simp only [hi, lo, mkWord]
  ext i
  simp only [BitVec.getElem_append, BitVec.getElem_extractLsb']
  split <;> simp
  · rw [BitVec.getLsbD_eq_getElem (by omega)]
  · rw [BitVec.getLsbD_eq_getElem (by omega)]; congr 1; omega

@[simp] theorem Regs.get8_set8 (g : Regs) (r : Reg8) (v : Byte) : (g.set8 r v).get8 r = v := by
  cases r <;> simp [Regs.get8, Regs.set8]

@[simp] theorem Regs.get16_set16 (g : Regs) (r : Reg16) (w : Word) : (g.set16 r w).get16 r = w := by
  cases r <;> simp [Regs.get16, Regs.set16, Regs.bc, Regs.de, Regs.hl, Regs.af]

/-- Writing one of the seven plain registers leaves the other six. -/
theorem Regs.get8_set8_ne (g : Regs) (r q : R7) (v : Byte) (h : r ≠ q) : (g.set8 r.reg v).get8 q.reg = g.get8 q.reg := by
  cases r <;> cases q <;> first
    | rfl
    | exact absurd rfl h

end Sys2Proof.Machine
end

