-- ==== Sys2Proof/Laws/Memory.lean ====
section
/-! SUPPORT. The laws of sparse lists, blocks and memory: what a read finds after a write, and that every memory operation
keeps the canonical form. -/

namespace Sys2Proof.Machine

/-! ## Sparse lists -/

section Sparse
variable {α : Type} [DecidableEq α] {dflt : α}

theorem sparseWf_mono {len lo lo' : Nat} {l : List (Nat × α)} (h : sparseWf dflt len lo l = true) (hle : lo' ≤ lo) :
    sparseWf dflt len lo' l = true := by
  cases l with
  | nil => rfl
  | cons e t =>
    simp only [sparseWf, Bool.and_eq_true, decide_eq_true_eq] at h ⊢
    exact ⟨⟨⟨by omega, h.1.1.2⟩, h.1.2⟩, h.2⟩

/-- An index below the first one listed is unlisted. -/
theorem sparseGet_below {len lo i : Nat} {l : List (Nat × α)} (h : sparseWf dflt len lo l = true) (hi : i < lo) :
    sparseGet dflt l i = dflt := by
  induction l generalizing lo with
  | nil => rfl
  | cons e t ih =>
    simp only [sparseWf, Bool.and_eq_true, decide_eq_true_eq] at h
    simp only [sparseGet]
    rw [if_neg (by omega)]
    exact ih h.2 (by omega)

theorem sparseGet_set_same {len lo i : Nat} {v : α} {l : List (Nat × α)} (h : sparseWf dflt len lo l = true) :
    sparseGet dflt (sparseSet dflt l i v) i = v := by
  induction l generalizing lo with
  | nil =>
    simp only [sparseSet]
    split
    · next hv => simp [sparseGet, hv]
    · simp [sparseGet]
  | cons e t ih =>
    obtain ⟨k, w⟩ := e
    simp only [sparseWf, Bool.and_eq_true, decide_eq_true_eq] at h
    simp only [sparseSet]
    split
    · next hk =>
      simp only [sparseGet]
      rw [if_neg (by omega)]
      exact ih h.2
    · next hk =>
      split
      · next hv =>
        subst hv
        split
        · next hki => exact sparseGet_below h.2 (by omega)
        · next hki =>
          simp only [sparseGet]
          rw [if_neg hki]
          exact sparseGet_below h.2 (by omega)
      · simp [sparseGet]

theorem sparseGet_set_other {i j : Nat} {v : α} {l : List (Nat × α)} (hij : j ≠ i) :
    sparseGet dflt (sparseSet dflt l i v) j = sparseGet dflt l j := by
  induction l with
  | nil =>
    simp only [sparseSet]
    split
    · rfl
    · simp only [sparseGet]; rw [if_neg (by omega)]
  | cons e t ih =>
    obtain ⟨k, w⟩ := e
    simp only [sparseSet]
    split
    · simp only [sparseGet, ih]
    · split
      · split
        · next hk => simp only [sparseGet]; rw [if_neg (by omega)]
        · rfl
      · simp only [sparseGet]
        rw [if_neg (Ne.symm hij)]
        split
        · next hk => rw [if_neg (by omega)]
        · rfl

theorem sparseSet_wf {len lo i : Nat} {v : α} {l : List (Nat × α)} (h : sparseWf dflt len lo l = true) (hlo : lo ≤ i)
    (hi : i < len) : sparseWf dflt len lo (sparseSet dflt l i v) = true := by
  induction l generalizing lo with
  | nil =>
    simp only [sparseSet]
    split
    · rfl
    · next hv => simp [sparseWf, hv, hi, hlo]
  | cons e t ih =>
    obtain ⟨k, w⟩ := e
    simp only [sparseWf, Bool.and_eq_true, decide_eq_true_eq] at h
    simp only [sparseSet]
    split
    · next hk =>
      simp only [sparseWf, Bool.and_eq_true, decide_eq_true_eq]
      exact ⟨h.1, ih h.2 (by omega)⟩
    · next hk =>
      split
      · split
        · exact sparseWf_mono h.2 (by omega)
        · simp only [sparseWf, Bool.and_eq_true, decide_eq_true_eq]
          exact ⟨h.1, h.2⟩
      · next hv =>
        simp only [sparseWf, Bool.and_eq_true, decide_eq_true_eq]
        refine ⟨⟨⟨hlo, hi⟩, hv⟩, ?_⟩
        split
        · next hki => subst hki; exact h.2
        · simp only [sparseWf, Bool.and_eq_true, decide_eq_true_eq]
          exact ⟨⟨⟨by omega, h.1.1.2⟩, h.1.2⟩, h.2⟩

/-- Two canonical lists that read the same everywhere are the same list. -/
theorem sparse_ext {len lo : Nat} {l m : List (Nat × α)} (hl : sparseWf dflt len lo l = true)
    (hm : sparseWf dflt len lo m = true) (h : ∀ i, sparseGet dflt l i = sparseGet dflt m i) : l = m := by
  induction l generalizing lo m with
  | nil =>
    cases m with
    | nil => rfl
    | cons e t =>
      obtain ⟨k, w⟩ := e
      simp only [sparseWf, Bool.and_eq_true, decide_eq_true_eq] at hm
      have := h k
      simp [sparseGet] at this
      exact absurd this.symm hm.1.2
  | cons e t ih =>
    obtain ⟨k, w⟩ := e
    simp only [sparseWf, Bool.and_eq_true, decide_eq_true_eq] at hl
    cases m with
    | nil =>
      have := h k
      simp [sparseGet] at this
      exact absurd this hl.1.2
    | cons e' t' =>
      obtain ⟨k', w'⟩ := e'
      simp only [sparseWf, Bool.and_eq_true, decide_eq_true_eq] at hm
      have hk : k = k' := by
        rcases Nat.lt_trichotomy k k' with hlt | heq | hgt
        · have := h k
          simp only [sparseGet, if_true] at this
          rw [if_neg (by omega), sparseGet_below hm.2 (by omega)] at this
          exact absurd this hl.1.2
        · exact heq
        · have := h k'
          simp only [sparseGet, if_true] at this
          rw [if_neg (by omega), sparseGet_below hl.2 (by omega)] at this
          exact absurd this.symm hm.1.2
      subst hk
      have hw : w = w' := by simpa [sparseGet] using h k
      subst hw
      rw [ih hl.2 hm.2 fun i => ?_]
      by_cases hi : k = i
      · subst hi
        rw [sparseGet_below hl.2 (by omega), sparseGet_below hm.2 (by omega)]
      · simpa [sparseGet, hi] using h i

theorem sparseTrim_wf {len len' lo : Nat} {l : List (Nat × α)} (h : sparseWf dflt len lo l = true) :
    sparseWf dflt len' lo (sparseTrim len' l) = true := by
  induction l generalizing lo with
  | nil => rfl
  | cons e t ih =>
    obtain ⟨k, w⟩ := e
    simp only [sparseWf, Bool.and_eq_true, decide_eq_true_eq] at h
    simp only [sparseTrim, List.filter_cons]
    split
    · next hk =>
      simp only [decide_eq_true_eq] at hk
      simp only [sparseWf, Bool.and_eq_true, decide_eq_true_eq]
      exact ⟨⟨⟨h.1.1.1, hk⟩, h.1.2⟩, ih h.2⟩
    · exact sparseWf_mono (ih h.2) (by omega)

end Sparse

/-! ## Blocks -/

theorem Block.setData_wf {b : Block} {i : Nat} {v : Byte} (h : b.wf = true) (hi : i < b.len) : (b.setData i v).wf = true := by
  simp only [Block.wf, Bool.and_eq_true, decide_eq_true_eq] at h ⊢
  exact ⟨⟨h.1.1, sparseSet_wf h.1.2 (Nat.zero_le _) hi⟩, h.2⟩

theorem Block.setFlags_wf {b : Block} {i : Nat} {f : CellFlags} (h : b.wf = true) (hi : i < b.len) :
    (b.setFlags i f).wf = true := by
  simp only [Block.wf, Bool.and_eq_true, decide_eq_true_eq] at h ⊢
  exact ⟨⟨h.1.1, h.1.2⟩, sparseSet_wf h.2 (Nat.zero_le _) hi⟩

theorem Block.resize_wf {b : Block} {n : Nat} (h : b.wf = true) (hn : 1 ≤ n) : (b.resize n).wf = true := by
  simp only [Block.wf, Bool.and_eq_true, decide_eq_true_eq] at h ⊢
  exact ⟨⟨hn, sparseTrim_wf h.1.2⟩, sparseTrim_wf h.2⟩

theorem Block.load_wf {b : Block} {d : BlockSnap} (h : b.wf = true) (hd : sparseWf unlistedByte b.len 0 d.data = true) :
    (b.load d).wf = true := by
  simp only [Block.wf, Bool.and_eq_true, decide_eq_true_eq] at h ⊢
  exact ⟨⟨h.1.1, hd⟩, h.2⟩

theorem Block.cell_setData_flags (b : Block) (i j : Nat) (v : Byte) : ((b.setData i v).cell j).flags = (b.cell j).flags := rfl

theorem Block.cell_setData_other {b : Block} {i j : Nat} {v : Byte} (h : j ≠ i) : (b.setData i v).cell j = b.cell j := by
  simp [Block.cell, Block.setData, sparseGet_set_other h]

theorem Block.cell_setData_same {b : Block} {i : Nat} {v : Byte} (h : b.wf = true) :
    (b.setData i v).cell i = { b.cell i with data := v } := by
  simp only [Block.wf, Bool.and_eq_true, decide_eq_true_eq] at h
  simp [Block.cell, Block.setData, sparseGet_set_same h.1.2]

/-! ## Memory -/

theorem Memory.block?_update (m : Memory) (id : Nat) (f : Block → Block) (hf : ∀ b, (f b).id = b.id) (q : Nat) :
    (m.update id f).block? q = (m.block? q).map fun b => if b.id = id then f b else b := by
  induction m with
  | nil => rfl
  | cons b t ih =>
    simp only [Memory.update, List.map_cons, Memory.block?]
    have hid : (if b.id = id then f b else b).id = b.id := by split <;> simp [hf]
    rw [hid]
    split
    · rfl
    · exact ih

theorem Memory.block?_id {m : Memory} {q : Nat} {b : Block} (h : m.block? q = some b) : b.id = q := by
  induction m with
  | nil => simp [Memory.block?] at h
  | cons c t ih =>
    simp only [Memory.block?] at h
    split at h
    · next hc => cases h; exact hc
    · exact ih h

theorem Memory.mem_of_block? {m : Memory} {q : Nat} {b : Block} (h : m.block? q = some b) : b ∈ m := by
  induction m with
  | nil => simp [Memory.block?] at h
  | cons c t ih =>
    simp only [Memory.block?] at h
    split at h
    · cases h; exact List.mem_cons_self
    · exact List.mem_cons_of_mem _ (ih h)

theorem Memory.wfFrom_update {m : Memory} {lo id : Nat} {f : Block → Block} (h : Memory.wfFrom lo m = true)
    (hid : ∀ b, (f b).id = b.id) (hf : ∀ b ∈ m, b.id = id → b.wf = true → (f b).wf = true) :
    Memory.wfFrom lo (m.update id f) = true := by
  induction m generalizing lo with
  | nil => rfl
  | cons b t ih =>
    simp only [Memory.wfFrom, Bool.and_eq_true, decide_eq_true_eq] at h
    simp only [Memory.update, List.map_cons, Memory.wfFrom, Bool.and_eq_true, decide_eq_true_eq]
    have hb : (if b.id = id then f b else b).id = b.id := by split <;> simp [hid]
    rw [hb]
    refine ⟨⟨h.1.1, ?_⟩, ih h.2 fun c hc => hf c (List.mem_cons_of_mem _ hc)⟩
    split
    · next he => exact hf b List.mem_cons_self he h.1.2
    · exact h.1.2

theorem Memory.wf_of_block? {m : Memory} {lo q : Nat} {b : Block} (h : Memory.wfFrom lo m = true)
    (hb : m.block? q = some b) : b.wf = true := by
  induction m generalizing lo with
  | nil => simp [Memory.block?] at hb
  | cons c t ih =>
    simp only [Memory.wfFrom, Bool.and_eq_true, decide_eq_true_eq] at h
    simp only [Memory.block?] at hb
    split at hb
    · cases hb; exact h.1.2
    · exact ih h.2 hb

/-- In memory in canonical form, a block is found under its own identifier. -/
theorem Memory.block?_of_mem {m : Memory} {lo : Nat} {b : Block} (h : Memory.wfFrom lo m = true) (hb : b ∈ m) :
    m.block? b.id = some b := by
  induction m generalizing lo with
  | nil => cases hb
  | cons c t ih =>
    have hlow : ∀ {t : Memory} {lo : Nat} {b : Block}, Memory.wfFrom lo t = true → b ∈ t → lo ≤ b.id := by
      intro t
      induction t with
      | nil => intro _ _ _ hb; cases hb
      | cons c t ih =>
        intro lo b h hb
        simp only [Memory.wfFrom, Bool.and_eq_true, decide_eq_true_eq] at h
        rcases List.mem_cons.1 hb with rfl | hb
        · exact h.1.1
        · have := ih h.2 hb; omega
    simp only [Memory.wfFrom, Bool.and_eq_true, decide_eq_true_eq] at h
    simp only [Memory.block?]
    rcases List.mem_cons.1 hb with rfl | hb
    · simp
    · have := hlow h.2 hb
      rw [if_neg (by omega)]
      exact ih h.2 hb

/-- Every Cell's flags are as before a write of data. -/
theorem Memory.cell?_setData_flags (m : Memory) (r q : Ref) (v : Byte) :
    ((m.setData r v).cell? q).map (·.flags) = (m.cell? q).map (·.flags) := by
  simp only [Memory.cell?, Memory.setData]
  rw [Memory.block?_update m r.block (·.setData r.base v) fun _ => rfl]
  cases m.block? q.block with
  | none => rfl
  | some b =>
    simp only [Option.map_some]
    by_cases hlt : q.base < b.len <;> by_cases hid : b.id = r.block <;>
      simp [hlt, hid, Block.cell_setData_flags]

/-- Another Cell is as before a write of data. -/
theorem Memory.cell?_setData_other {m : Memory} {r q : Ref} {v : Byte} (h : q ≠ r) :
    (m.setData r v).cell? q = m.cell? q := by
  simp only [Memory.cell?, Memory.setData]
  rw [Memory.block?_update m r.block (·.setData r.base v) fun _ => rfl]
  cases hb : m.block? q.block with
  | none => rfl
  | some b =>
    have hid := Memory.block?_id hb
    simp only [Option.map_some]
    split
    · next he =>
      have hbase : q.base ≠ r.base := by
        intro hbase
        apply h
        cases q; cases r
        simp_all
      simp only [Block.setData_len, Block.cell_setData_other hbase]
    · rfl

/-- The Cell written holds the byte written. -/
theorem Memory.cell?_setData_same {m : Memory} {r : Ref} {v : Byte} (h : m.wf = true) :
    (m.setData r v).cell? r = (m.cell? r).map fun c => { c with data := v } := by
  simp only [Memory.cell?, Memory.setData]
  rw [Memory.block?_update m r.block (·.setData r.base v) fun _ => rfl]
  cases hb : m.block? r.block with
  | none => rfl
  | some b =>
    have hid := Memory.block?_id hb
    have hwf := Memory.wf_of_block? h hb
    by_cases hlt : r.base < b.len <;> simp [hid, hlt, Block.cell_setData_same hwf]

/-- Writing a Cell that is there keeps the canonical form. -/
theorem Memory.setData_wf {m : Memory} {r : Ref} {v : Byte} (h : m.wf = true) (hr : (m.cell? r).isSome = true) :
    (m.setData r v).wf = true := by
  refine Memory.wfFrom_update h (fun _ => rfl) fun b hb hid hwf => Block.setData_wf hwf ?_
  have := Memory.block?_of_mem h hb
  simp only [Memory.cell?, ← hid, this] at hr
  split at hr
  · assumption
  · cases hr

/-- Replacing the flags of a Cell that is there keeps the canonical form. -/
theorem Memory.setFlags_wf {m : Memory} {r : Ref} {f : CellFlags} (h : m.wf = true) (hr : (m.cell? r).isSome = true) :
    (m.setFlags r f).wf = true := by
  refine Memory.wfFrom_update h (fun _ => rfl) fun b hb hid hwf => Block.setFlags_wf hwf ?_
  have := Memory.block?_of_mem h hb
  simp only [Memory.cell?, ← hid, this] at hr
  split at hr
  · assumption
  · cases hr

/-- Resizing a block keeps the canonical form. -/
theorem Memory.resize_wf {m : Memory} {id n : Nat} (h : m.wf = true) (hn : 1 ≤ n) :
    (m.update id (·.resize n)).wf = true :=
  Memory.wfFrom_update h (fun _ => rfl) fun _ _ _ hwf => Block.resize_wf hwf hn

theorem Memory.wfFrom_mono {m : Memory} {lo lo' : Nat} (h : Memory.wfFrom lo m = true) (hle : lo' ≤ lo) :
    Memory.wfFrom lo' m = true := by
  cases m with
  | nil => rfl
  | cons b t =>
    simp only [Memory.wfFrom, Bool.and_eq_true, decide_eq_true_eq] at h ⊢
    exact ⟨⟨by omega, h.1.2⟩, h.2⟩

/-- Freeing a block keeps the canonical form. -/
theorem Memory.free_wf {m : Memory} {lo id : Nat} (h : Memory.wfFrom lo m = true) :
    Memory.wfFrom lo (m.filter (·.id != id)) = true := by
  induction m generalizing lo with
  | nil => rfl
  | cons b t ih =>
    simp only [Memory.wfFrom, Bool.and_eq_true, decide_eq_true_eq] at h
    simp only [List.filter_cons]
    split
    · simp only [Memory.wfFrom, Bool.and_eq_true, decide_eq_true_eq]
      exact ⟨h.1, ih h.2⟩
    · exact Memory.wfFrom_mono (ih h.2) (by omega)

/-- Inserting a block under a fresh identifier keeps the canonical form. -/
theorem Memory.insert_wf {m : Memory} {lo : Nat} {b : Block} (h : Memory.wfFrom lo m = true) (hlo : lo ≤ b.id)
    (hb : b.wf = true) (hfresh : ∀ c ∈ m, c.id ≠ b.id) : Memory.wfFrom lo (m.insert b) = true := by
  induction m generalizing lo with
  | nil => simp [Memory.insert, Memory.wfFrom, hlo, hb]
  | cons c t ih =>
    simp only [Memory.wfFrom, Bool.and_eq_true, decide_eq_true_eq] at h
    have hc := hfresh c List.mem_cons_self
    simp only [Memory.insert]
    split
    · next hlt =>
      simp only [Memory.wfFrom, Bool.and_eq_true, decide_eq_true_eq]
      exact ⟨h.1, ih h.2 (by omega) fun d hd => hfresh d (List.mem_cons_of_mem _ hd)⟩
    · simp only [Memory.wfFrom, Bool.and_eq_true, decide_eq_true_eq]
      exact ⟨⟨hlo, hb⟩, ⟨by omega, h.1.2⟩, h.2⟩

/-! ## Calm cycles after a store -/

theorem quiet_setData (s : State) (r q : Ref) (v : Byte) (acts : CellFlags → Bool) :
    State.quiet { s with mem := s.mem.setData r v } acts q = s.quiet acts q := by
  have h := Memory.cell?_setData_flags s.mem r q v
  simp only [State.quiet]
  cases h1 : (s.mem.setData r v).cell? q <;> cases h2 : s.mem.cell? q <;> simp_all

theorem quiet_setAt (s : State) (r : Option Ref) (q : Ref) (v : Byte) (acts : CellFlags → Bool) :
    State.quiet { s with mem := s.mem.setAt r v } acts q = s.quiet acts q := by
  cases r with
  | none => rfl
  | some r => exact quiet_setData s r q v acts

@[simp] theorem quiet_store (s : State) (a : Word) (v : Byte) (acts : CellFlags → Bool) (q : Ref) :
    (s.store a v).quiet acts q = s.quiet acts q := by
  have h1 := quiet_setAt { s with mem := s.mem.setAt (s.writeRef a) v } (s.shadowRef a) q v acts
  have h2 := quiet_setAt s (s.writeRef a) q v acts
  rw [h2] at h1
  exact h1

@[simp] theorem calmRead_store (s : State) (a b : Word) (v : Byte) : (s.store a v).calmRead b = s.calmRead b := by
  have h : (s.store a v).quiet (s.store a v).mode.actsOnRead = s.quiet s.mode.actsOnRead := funext (quiet_store s a v _)
  simp only [State.calmRead, h]
  rfl

@[simp] theorem calmFetch_store (s : State) (a b : Word) (v : Byte) : (s.store a v).calmFetch b = s.calmFetch b := by
  have h : (s.store a v).quiet (s.store a v).mode.actsOnFetch = s.quiet s.mode.actsOnFetch := funext (quiet_store s a v _)
  simp only [State.calmFetch, h]
  rfl

@[simp] theorem calmIdle_store (s : State) (a b : Word) (v : Byte) : (s.store a v).calmIdle b = s.calmIdle b := by
  have h : (s.store a v).quiet (fun f => (s.store a v).mode.wait && f.wait) = s.quiet fun f => s.mode.wait && f.wait :=
    funext (quiet_store s a v _)
  simp only [State.calmIdle, h]
  rfl

@[simp] theorem calmWrite_store (s : State) (a b : Word) (v : Byte) : (s.store a v).calmWrite b = s.calmWrite b := by
  have h : (s.store a v).quiet (s.store a v).mode.actsOnWrite = s.quiet s.mode.actsOnWrite := funext (quiet_store s a v _)
  simp only [State.calmWrite, h]
  rfl

@[simp] theorem calmRead_after (s : State) (k : Int) (b : Word) : (s.after k).calmRead b = s.calmRead b := rfl
@[simp] theorem calmFetch_after (s : State) (k : Int) (b : Word) : (s.after k).calmFetch b = s.calmFetch b := rfl
@[simp] theorem calmIdle_after (s : State) (k : Int) (b : Word) : (s.after k).calmIdle b = s.calmIdle b := rfl
@[simp] theorem calmWrite_after (s : State) (k : Int) (b : Word) : (s.after k).calmWrite b = s.calmWrite b := rfl
@[simp] theorem calmRead_withRegs (s : State) (f : Regs → Regs) (b : Word) : (s.withRegs f).calmRead b = s.calmRead b := rfl
@[simp] theorem calmFetch_withRegs (s : State) (f : Regs → Regs) (b : Word) : (s.withRegs f).calmFetch b = s.calmFetch b := rfl
@[simp] theorem calmIdle_withRegs (s : State) (f : Regs → Regs) (b : Word) : (s.withRegs f).calmIdle b = s.calmIdle b := rfl
@[simp] theorem calmWrite_withRegs (s : State) (f : Regs → Regs) (b : Word) : (s.withRegs f).calmWrite b = s.calmWrite b := rfl
@[simp] theorem byteAt_after (s : State) (k : Int) (a : Word) : (s.after k).byteAt a = s.byteAt a := rfl
@[simp] theorem byteAt_withRegs (s : State) (f : Regs → Regs) (a : Word) : (s.withRegs f).byteAt a = s.byteAt a := rfl

end Sys2Proof.Machine
end

