-- ==== Sys2Proof/Laws/Cycles.lean ====
section
/-! SUPPORT. What each bus cycle and each shared operation does where its cycles are calm: one equation each, cited instead
of unfolding it. -/

namespace Sys2Proof.Machine

/-! ## The parts of a cycle -/

theorem run_active {s : State} {a : Word} {m : Mapping} (h : activeMapping s.cfg s.pages a = some m) :
    active a s = .ok m s := by
  unfold active
  rw [run_bind_ok (run_get s)]
  simp only [h]
  rfl

theorem run_cellAt {s : State} {r : Ref} {c : CellView} (h : s.mem.cell? r = some c) : cellAt r s = .ok c s := by
  unfold cellAt
  rw [run_bind_ok (run_get s)]
  simp only [h]
  rfl

theorem run_waitFor_off {s : State} {c : CellView} (a : Word) (m : Mapping) (h : (s.mode.wait && c.flags.wait) = false) :
    waitFor a m c s = .ok () s := by
  unfold waitFor
  rw [run_bind_ok (run_get s)]
  simp only [h]
  rfl

/-- With a wait table the wait is the table's entry at `cc mod len` (20_memory.md rule R130). -/
theorem run_waitFor_table {s : State} {c : CellView} {a : Word} {m : Mapping} {t : WaitTable}
    (h : (s.mode.wait && c.flags.wait) = true) (ht : m.wait = some t) :
    waitFor a m c s = tick (t.at s.cc).toNat s := by
  unfold waitFor
  rw [run_bind_ok (run_get s)]
  simp only [h, ht, if_true]

/-- Without one it is the collaborator's. -/
theorem run_waitFor_fun {s : State} {c : CellView} {a : Word} {m : Mapping}
    (h : (s.mode.wait && c.flags.wait) = true) (ht : m.wait = none) :
    waitFor a m c s =
      if s.cfg.addWaitCycles s.cc a - s.cc < 0 then .error (.fault .negativeWait) s
      else tick (s.cfg.addWaitCycles s.cc a - s.cc) s := by
  unfold waitFor
  rw [run_bind_ok (run_get s)]
  simp only [h, ht, if_true]
  split <;> rfl

/-! ## What a calm cycle gives -/

theorem calm_ref {s : State} {a : Word} {acts : CellFlags → Bool} (h : (s.readRef a).any (s.quiet acts) = true) :
    ∃ m c, activeMapping s.cfg s.pages a = some m ∧ s.mem.cell? (m.read.at s.cfg a) = some c ∧ acts c.flags = false ∧
      s.byteAt a = c.data := by
  simp only [State.readRef] at h
  cases hm : activeMapping s.cfg s.pages a with
  | none => simp [hm] at h
  | some m =>
    simp only [hm, Option.map_some, Option.any_some, State.quiet] at h
    cases hc : s.mem.cell? (m.read.at s.cfg a) with
    | none => simp [hc] at h
    | some c =>
      refine ⟨m, c, rfl, hc, by simpa [hc] using h, ?_⟩
      simp [State.byteAt, State.readRef, hm, hc]

/-- `MR(a)` where it is calm. -/
theorem run_mr {s : State} {a : Word} (h : s.calmRead a = true) (hr : s.room 3) :
    mr a s = .ok (s.byteAt a) (s.after 3) := by
  obtain ⟨m, c, hm, hc, hf, hb⟩ := calm_ref h
  simp only [ModeFlags.actsOnRead, Bool.or_eq_false_iff] at hf
  obtain ⟨⟨⟨hw, hmm⟩, hbk⟩, hlog⟩ := hf
  unfold mr
  rw [run_bind_ok (run_active hm), run_bind_ok (run_get s), run_bind_ok (run_cellAt hc),
    run_bind_ok (run_waitFor_off a m hw), run_bind_ok (run_get s)]
  simp only [Bool.and_comm c.flags.mmioRead, hmm, Bool.false_eq_true, if_false]
  rw [run_bind_ok (run_pure _ _), run_bind_ok (run_cellAt hc)]
  simp only [Bool.and_comm c.flags.breakRead, Bool.and_comm c.flags.logAccess, hbk, hlog, Bool.false_eq_true, if_false]
  rw [run_bind_ok (run_tick_room hr), hb]
  rfl

/-- `M1(a)` where it is calm. -/
theorem run_m1 {s : State} {a : Word} (h : s.calmFetch a = true) (hr : s.room 4) :
    m1 a s = .ok (s.byteAt a) ((s.withRegs fun g => { g with r := bumpR g.r }).after 4) := by
  obtain ⟨m, c, hm, hc, hf, hb⟩ := calm_ref h
  simp only [ModeFlags.actsOnFetch, Bool.or_eq_false_iff] at hf
  obtain ⟨⟨⟨hw, hmm⟩, hp⟩, hlog⟩ := hf
  unfold m1
  rw [run_bind_ok (run_active hm), run_bind_ok (run_get s), run_bind_ok (run_cellAt hc),
    run_bind_ok (run_waitFor_off a m hw), run_bind_ok (run_get s)]
  simp only [Bool.and_comm c.flags.mmioRead, hmm, Bool.false_eq_true, if_false]
  rw [run_bind_ok (run_pure _ _), run_bind_ok (run_cellAt hc)]
  simp only [Bool.and_comm c.flags.patchOnExec, hp, Bool.false_eq_true, if_false]
  rw [run_bind_ok (run_pure _ _), run_bind_ok (run_cellAt hc)]
  simp only [Bool.and_comm c.flags.logAccess, hlog, Bool.false_eq_true, if_false]
  rw [run_bind_ok (run_refresh _), run_bind_ok (run_tick_room (by exact hr)), hb]
  rfl

/-- `WriteCell` where it is calm. -/
theorem run_writeCell {s : State} {r : Ref} (a : Word) (v : Byte) (h : s.quiet s.mode.actsOnWrite r = true) :
    writeCell r a v s = .ok () { s with mem := s.mem.setData r v } := by
  simp only [State.quiet] at h
  cases hc : s.mem.cell? r with
  | none => simp [hc] at h
  | some c =>
    have hf : s.mode.actsOnWrite c.flags = false := by simpa [hc] using h
    simp only [ModeFlags.actsOnWrite, Bool.or_eq_false_iff] at hf
    obtain ⟨⟨⟨⟨hw, hv⟩, hmm⟩, hbk⟩, hlog⟩ := hf
    have hc' : ∃ c', (s.mem.setData r v).cell? r = some c' ∧ c'.flags = c.flags := by
      have := Memory.cell?_setData_flags s.mem r r v
      rw [hc] at this
      cases h' : (s.mem.setData r v).cell? r with
      | none => simp [h'] at this
      | some c' => exact ⟨c', rfl, by simpa [h'] using this⟩
    obtain ⟨c', hc', hfl⟩ := hc'
    unfold writeCell
    rw [run_bind_ok (run_cellAt hc), run_bind_ok (run_get s)]
    simp only [Bool.and_comm c.flags.videoTrack, hv, Bool.false_eq_true, if_false]
    rw [run_bind_ok (run_modify _ _)]
    simp only [Bool.and_comm c.flags.mmioWrite, hmm, Bool.false_eq_true, if_false]
    rw [run_bind_ok (run_cellAt hc')]
    simp only [hfl, Bool.and_comm c.flags.breakWrite, Bool.and_comm c.flags.logAccess, hbk, hlog, Bool.false_eq_true,
      if_false]
    rfl

/-- `MW(a, v)` where it is calm. -/
theorem run_mw {s : State} {a : Word} (v : Byte) (h : s.calmWrite a = true) (hr : s.room 3) :
    mw a v s = .ok () ((s.store a v).after 3) := by
  simp only [State.calmWrite, Bool.and_eq_true, State.writeRef, State.shadowRef] at h
  obtain ⟨hp, hs⟩ := h
  cases hm : activeMapping s.cfg s.pages a with
  | none => simp [hm] at hp
  | some m =>
    simp only [hm, Option.map_some, Option.any_some] at hp
    simp only [hm, Option.bind_some] at hs
    have hq := hp
    simp only [State.quiet] at hq
    cases hc : s.mem.cell? (m.write.at s.cfg a) with
    | none => simp [hc] at hq
    | some c =>
      have hf : s.mode.actsOnWrite c.flags = false := by simpa [hc] using hq
      simp only [ModeFlags.actsOnWrite, Bool.or_eq_false_iff] at hf
      unfold mw
      rw [run_bind_ok (run_active hm), run_bind_ok (run_get s), run_bind_ok (run_cellAt hc),
        run_bind_ok (run_waitFor_off a m hf.1.1.1.1), run_bind_ok (run_writeCell a v hp)]
      cases hsh : m.shadow with
      | none =>
        simp only
        rw [run_tick_room (by exact hr)]
        simp [State.store, State.stored, State.writeRef, State.shadowRef, hm, hsh, Memory.setAt]
      | some q =>
        simp only [hsh, Option.map_some, Option.all_some] at hs
        simp only
        have hs' : State.quiet { s with mem := s.mem.setData (m.write.at s.cfg a) v } s.mode.actsOnWrite (q.at s.cfg a) = true := by
          rw [quiet_setData]; exact hs
        rw [run_bind_ok (run_writeCell a v hs'), run_tick_room (by exact hr)]
        simp [State.store, State.stored, State.writeRef, State.shadowRef, hm, hsh, Memory.setAt]

theorem run_internal1 {s : State} {a : Word} (h : s.calmIdle a = true) (hr : s.room 1) :
    internal1 a s = .ok () (s.after 1) := by
  obtain ⟨m, c, hm, hc, hf, -⟩ := calm_ref h
  unfold internal1
  rw [if_pos (by rfl), run_bind_ok (run_active hm), run_bind_ok (run_get s), run_bind_ok (run_cellAt hc),
    run_bind_ok (run_waitFor_off a m hf)]
  exact run_tick_room hr

/-- `N(a, k)` where it is calm. -/
theorem run_internal {s : State} {a : Word} {k : Nat} (h : s.calmIdle a = true) (hr : s.room k) :
    internal a k s = .ok () (s.after k) := by
  induction k generalizing s with
  | zero => simp [internal, State.after]; rfl
  | succ k ih =>
    unfold internal
    have h1 : s.room 1 := by simp only [State.room] at hr ⊢; omega
    rw [run_bind_ok (run_internal1 h h1), ih (by simpa using h) (by simp only [State.room, State.after_cc] at hr ⊢; omega)]
    simp only [State.after_after]
    congr 2
    omega

/-! ## Words and the stack -/

theorem run_mr16 {s : State} {a : Word} (h0 : s.calmRead a = true) (h1 : s.calmRead (a + 1) = true) (hr : s.room 6) :
    mr16 a s = .ok (s.wordAt a) (s.after 6) := by
  unfold mr16
  simp only [State.room] at hr
  rw [run_bind_ok (run_mr h0 (by simp only [State.room]; omega)),
    run_bind_ok (run_mr (by simpa using h1) (by simp only [State.room, State.after_cc]; omega)), State.after_after]
  rfl

theorem run_mw16 {s : State} {a : Word} (w : Word) (h0 : s.calmWrite a = true) (h1 : s.calmWrite (a + 1) = true)
    (hr : s.room 6) : mw16 a w s = .ok () ((s.store16 a w).after 6) := by
  unfold mw16
  simp only [State.room] at hr
  rw [run_bind_ok (run_mw _ h0 (by simp only [State.room]; omega)),
    run_mw _ (by simpa using h1) (by simp only [State.room, State.after_cc, State.store_cc]; omega)]
  simp [State.store16]

/-- `Push16(w)` where it is calm. -/
theorem run_push16 {s : State} (w : Word) (h : s.calmPush = true)
    (hr : s.room 6) : push16 w s = .ok () ((s.pushed w).after 6) := by
  simp only [State.calmPush, Bool.and_eq_true] at h
  obtain ⟨h1, h2⟩ := h
  have h2' : ∀ x : Word, x - 1#16 - 1#16 = x - 2#16 := fun x => by rw [BitVec.sub_sub]; rfl
  unfold push16
  simp only [State.room] at hr
  rw [run_bind_ok (run_modRegs _ _), run_bind_ok (run_theRegs _),
    run_bind_ok (run_mw _ (by simpa using h1) (by simp only [State.room, State.withRegs_cc]; omega)),
    run_bind_ok (run_modRegs _ _), run_bind_ok (run_theRegs _),
    run_mw _ (by simpa [h2'] using h2) (by simp only [State.room, State.withRegs_cc, State.after_cc, State.store_cc]; omega)]
  simp [State.pushed, h2']

/-- `Pop16()` where it is calm. -/
theorem run_pop16 {s : State} (h : s.calmPop = true) (hr : s.room 6) :
    pop16 s = .ok (s.wordAt s.regs.sp) ((s.withRegs fun g => { g with sp := g.sp + 2 }).after 6) := by
  simp only [State.calmPop, Bool.and_eq_true] at h
  obtain ⟨h0, h1⟩ := h
  have h2 : ∀ x : Word, x + 1#16 + 1#16 = x + 2#16 := fun x => by rw [BitVec.add_assoc]; rfl
  unfold pop16
  simp only [State.room] at hr
  rw [run_bind_ok (run_theRegs _), run_bind_ok (run_mr h0 (by simp only [State.room]; omega)),
    run_bind_ok (run_modRegs _ _), run_bind_ok (run_theRegs _),
    run_bind_ok (run_mr (by simpa using h1) (by simp only [State.room, State.withRegs_cc, State.after_cc]; omega)),
    run_bind_ok (run_modRegs _ _)]
  simp [run_pure, h2, State.wordAt]

/-! ## Operand addresses -/

theorem run_indexAddr {s : State} {k : Nat} (i : XY) (d : Byte) (h : s.calmIdle (s.regs.pc - 1) = true) (hr : s.room k) :
    indexAddr i d k s = .ok (s.regs.indexed i d) ((s.withRegs fun g => { g with wz := g.indexed i d }).after k) := by
  unfold indexAddr
  rw [run_bind_ok (run_theRegs s), run_bind_ok (run_internal h hr), run_bind_ok (run_theRegs _),
    run_bind_ok (run_modRegs _ _)]
  rfl

theorem run_memAddr {s : State} (m : Mem8) (h : s.calmEA m = true) (hr : s.room (eaTime 5 m)) :
    memAddr m s = .ok (s.regs.memEA m) ((s.withRegs (·.noteEA m)).after (eaTime 5 m)) := by
  cases m with
  | atHL => simp [memAddr, run_getReg16, eaTime, Regs.memEA, Regs.noteEA, State.after, State.withRegs, Regs.get16]
  | atIdx i d => exact run_indexAddr i d h hr

theorem run_cbAddr {s : State} (m : Mem8) (h : s.calmEA m = true) (hr : s.room (eaTime 2 m)) :
    cbAddr m s = .ok (s.regs.memEA m) ((s.withRegs (·.noteEA m)).after (eaTime 2 m)) := by
  cases m with
  | atHL => simp [cbAddr, run_getReg16, eaTime, Regs.memEA, Regs.noteEA, State.after, State.withRegs, Regs.get16]
  | atIdx i d => exact run_indexAddr i d h hr

end Sys2Proof.Machine
end

