-- ==== Sys2Proof/Laws/Operations.lean ====
section
/-! SUPPORT. What each shared operation of the meanings does: one equation each, over states where its cycles are calm and
`cc` has room. The equation says everything the operation does; the rest of the state is as it was. -/

namespace Sys2Proof.Machine

/-! ## Room -/

theorem State.room_le {s : State} {j k : Int} (h : s.room k) (hjk : j ≤ k) : s.room j := by
  simp only [State.room] at h ⊢; omega

@[simp] theorem State.room_after (s : State) (j k : Int) : (s.after j).room k ↔ s.room (j + k) := by
  simp only [State.room, State.after_cc]; omega

@[simp] theorem State.room_withRegs (s : State) (f : Regs → Regs) (k : Int) : (s.withRegs f).room k ↔ s.room k := Iff.rfl
@[simp] theorem State.room_store (s : State) (a : Word) (v : Byte) (k : Int) : (s.store a v).room k ↔ s.room k := Iff.rfl

@[simp] theorem eaTime_nonneg (k : Nat) (m : Mem8) : (0 : Int) ≤ eaTime k m := Int.natCast_nonneg _

@[simp] theorem calmEA_after (s : State) (k : Int) (m : Mem8) : (s.after k).calmEA m = s.calmEA m := by cases m <;> rfl

@[simp] theorem Regs.noteEA_get8 (g : Regs) (m : Mem8) (r : Reg8) : (g.noteEA m).get8 r = g.get8 r := by
  cases m <;> cases r <;> rfl
@[simp] theorem Regs.noteEA_flags (g : Regs) (m : Mem8) : (g.noteEA m).flags = g.flags := by cases m <;> rfl
@[simp] theorem Regs.noteEA_a (g : Regs) (m : Mem8) : (g.noteEA m).a = g.a := by cases m <;> rfl

/-- A calm read does not wait, so internal T-states at the same address do not either. -/
theorem calmIdle_of_calmRead {s : State} {a : Word} (h : s.calmRead a = true) : s.calmIdle a = true := by
  obtain ⟨m, c, hm, hc, hf, -⟩ := calm_ref h
  simp only [ModeFlags.actsOnRead, Bool.or_eq_false_iff] at hf
  simp [State.calmIdle, State.readRef, hm, State.quiet, hc, hf.1.1.1]

/-! ## Loads (41_load.md) -/

theorem run_source_reg (r : Reg8) (s : State) : source (.reg r) s = .ok (s.regs.get8 r) s := rfl
theorem run_source_imm (n : Byte) (s : State) : source (.imm n) s = .ok n s := rfl

theorem run_source_mem {s : State} {m : Mem8} (h : s.calmEA m = true) (h1 : s.calmRead (s.regs.memEA m) = true)
    (hr : s.room (eaTime 5 m + 3)) :
    source m.src s = .ok (s.byteAt (s.regs.memEA m)) ((s.withRegs (·.noteEA m)).after (eaTime 5 m + 3)) := by
  have hs : source m.src = memAddr m >>= mr := by cases m <;> rfl
  rw [hs, run_bind_ok (run_memAddr m h (State.room_le hr (by omega))), run_mr (by simpa using h1) (by simpa using hr)]
  simp

theorem run_ld8_reg (dst r : Reg8) (s : State) : ld8 dst (.reg r) s = .ok () (s.withRegs fun g => g.set8 dst (g.get8 r)) := rfl
theorem run_ld8_imm (dst : Reg8) (n : Byte) (s : State) : ld8 dst (.imm n) s = .ok () (s.withRegs (·.set8 dst n)) := rfl

theorem run_ld8_mem {s : State} {m : Mem8} (dst : Reg8) (h : s.calmEA m = true)
    (h1 : s.calmRead (s.regs.memEA m) = true) (hr : s.room (eaTime 5 m + 3)) :
    ld8 dst m.src s =
      .ok () ((s.withRegs fun g => (g.noteEA m).set8 dst (s.byteAt (g.memEA m))).after (eaTime 5 m + 3)) := by
  unfold ld8
  rw [run_bind_ok (run_source_mem h h1 hr), run_putReg8]
  rfl

theorem run_st8 {s : State} {m : Mem8} (r : Reg8) (h : s.calmEA m = true) (h1 : s.calmWrite (s.regs.memEA m) = true)
    (hr : s.room (eaTime 5 m + 3)) :
    st8 m r s = .ok () (((s.store (s.regs.memEA m) (s.regs.get8 r)).withRegs (·.noteEA m)).after (eaTime 5 m + 3)) := by
  unfold st8
  rw [run_bind_ok (run_memAddr m h (State.room_le hr (by omega))), run_bind_ok (run_getReg8 _ _),
    run_mw _ (by simpa using h1) (by simpa using hr)]
  simp

theorem run_stHLImm {s : State} (n : Byte) (h : s.calmWrite s.regs.hl = true) (hr : s.room 3) :
    stHLImm n s = .ok () ((s.store s.regs.hl n).after 3) := by
  unfold stHLImm
  rw [run_bind_ok (run_getReg16 _ _)]
  exact run_mw n h hr

theorem run_stIdxImm {s : State} (i : XY) (d n : Byte) (h : s.calmIdle (s.regs.pc - 1) = true)
    (h1 : s.calmWrite (s.regs.indexed i d) = true) (hr : s.room 5) :
    stIdxImm i d n s =
      .ok () (((s.store (s.regs.indexed i d) n).withRegs fun g => { g with wz := g.indexed i d }).after 5) := by
  unfold stIdxImm
  rw [run_bind_ok (run_indexAddr i d h (State.room_le hr (by decide))), run_mw _ (by simpa using h1) (by simpa using hr)]
  simp

theorem run_ldAFrom {s : State} {a : Word} (h : s.calmRead a = true) (hr : s.room 3) :
    ldAFrom a s = .ok () ((s.withRegs fun g => { g with a := s.byteAt a, wz := a + 1 }).after 3) := by
  unfold ldAFrom
  rw [run_bind_ok (run_mr h hr), run_modRegs, State.after_withRegs]

theorem run_stATo {s : State} {a : Word} (h : s.calmWrite a = true) (hr : s.room 3) :
    stATo a s = .ok () (((s.store a s.regs.a).withRegs fun g => { g with wz := mkWord g.a (lo (a + 1)) }).after 3) := by
  unfold stATo
  rw [run_bind_ok (run_getReg8 _ _), run_bind_ok (run_mw _ h hr), run_modRegs, State.after_withRegs]
  rfl

theorem run_ldAAt {s : State} (p : BcDe) (h : s.calmRead (s.regs.get16 p.reg) = true) (hr : s.room 3) :
    ldAAt p s = .ok () ((s.withRegs fun g => { g with a := s.byteAt (g.get16 p.reg), wz := g.get16 p.reg + 1 }).after 3) := by
  unfold ldAAt
  rw [run_bind_ok (run_getReg16 _ _), run_ldAFrom h hr]
  rfl

theorem run_stAAt {s : State} (p : BcDe) (h : s.calmWrite (s.regs.get16 p.reg) = true) (hr : s.room 3) :
    stAAt p s = .ok () (((s.store (s.regs.get16 p.reg) s.regs.a).withRegs fun g =>
      { g with wz := mkWord g.a (lo (g.get16 p.reg + 1)) }).after 3) := by
  unfold stAAt
  rw [run_bind_ok (run_getReg16 _ _), run_stATo h hr]
  rfl

theorem run_ldAI {s : State} (h : s.calmIdle s.regs.ir = true) (hr : s.room 1) :
    ldAI s = .ok () ((s.withRegs fun g => g.setAF (g.i, ldAirFlags g.i g.iff2 g.flags)).after 1) := by
  unfold ldAI
  rw [run_bind_ok (run_theRegs s), run_bind_ok (run_internal h hr), run_modRegs]
  rfl

theorem run_ldAR {s : State} (h : s.calmIdle s.regs.ir = true) (hr : s.room 1) :
    ldAR s = .ok () ((s.withRegs fun g => g.setAF (g.r, ldAirFlags g.r g.iff2 g.flags)).after 1) := by
  unfold ldAR
  rw [run_bind_ok (run_theRegs s), run_bind_ok (run_internal h hr), run_modRegs]
  rfl

theorem run_ldIA {s : State} (h : s.calmIdle s.regs.ir = true) (hr : s.room 1) :
    ldIA s = .ok () ((s.withRegs fun g => { g with i := g.a }).after 1) := by
  unfold ldIA
  rw [run_bind_ok (run_theRegs s), run_bind_ok (run_internal h hr), run_modRegs]
  rfl

theorem run_ldRA {s : State} (h : s.calmIdle s.regs.ir = true) (hr : s.room 1) :
    ldRA s = .ok () ((s.withRegs fun g => { g with r := g.a }).after 1) := by
  unfold ldRA
  rw [run_bind_ok (run_theRegs s), run_bind_ok (run_internal h hr), run_modRegs]
  rfl

theorem run_ld16Imm (r : Reg16) (nn : Word) (s : State) : ld16Imm r nn s = .ok () (s.withRegs (·.set16 r nn)) := rfl

theorem run_ld16Nn {s : State} (r : Reg16) (nn : Word) (h0 : s.calmRead nn = true) (h1 : s.calmRead (nn + 1) = true)
    (hr : s.room 6) :
    ld16Nn r nn s = .ok () ((s.withRegs fun g => { g.set16 r (s.wordAt nn) with wz := nn + 1 }).after 6) := by
  unfold ld16Nn
  rw [run_bind_ok (run_mr16 h0 h1 hr), run_bind_ok (run_putReg16 _ _ _), run_modRegs]
  rfl

theorem run_st16Nn {s : State} (r : Reg16) (nn : Word) (h0 : s.calmWrite nn = true) (h1 : s.calmWrite (nn + 1) = true)
    (hr : s.room 6) :
    st16Nn nn r s = .ok () (((s.store16 nn (s.regs.get16 r)).withRegs fun g => { g with wz := nn + 1 }).after 6) := by
  unfold st16Nn
  rw [run_bind_ok (run_getReg16 _ _), run_bind_ok (run_mw16 _ h0 h1 hr), run_modRegs]
  rfl

theorem run_ldSp {s : State} (r : Reg16) (h : s.calmIdle s.regs.ir = true) (hr : s.room 2) :
    ldSp r s = .ok () ((s.withRegs fun g => g.set16 .sp (g.get16 r)).after 2) := by
  unfold ldSp
  rw [run_bind_ok (run_theRegs s), run_bind_ok (run_internal h hr), run_bind_ok (run_getReg16 _ _), run_putReg16]
  rfl

@[simp] theorem calmPush_after (s : State) (k : Int) : (s.after k).calmPush = s.calmPush := rfl
@[simp] theorem calmPop_after (s : State) (k : Int) : (s.after k).calmPop = s.calmPop := rfl
@[simp] theorem pushed_after (s : State) (k : Int) (w : Word) : (s.after k).pushed w = (s.pushed w).after k := rfl

theorem run_push {s : State} (r : Reg16) (h : s.calmIdle s.regs.ir = true) (h1 : s.calmPush = true) (hr : s.room 7) :
    push r s = .ok () ((s.pushed (s.regs.get16 r)).after 7) := by
  unfold push
  rw [run_bind_ok (run_theRegs s), run_bind_ok (run_internal h (State.room_le hr (by decide))),
    run_bind_ok (run_getReg16 _ _), run_push16 _ (by simpa using h1) (by simpa using hr)]
  simp

theorem run_pop {s : State} (r : Reg16) (h : s.calmPop = true) (hr : s.room 6) :
    pop r s = .ok () ((s.withRegs fun g => { g with sp := g.sp + 2 }.set16 r (s.wordAt g.sp)).after 6) := by
  unfold pop
  rw [run_bind_ok (run_pop16 h hr), run_putReg16]
  rfl

end Sys2Proof.Machine
end

