-- ==== Sys2Proof/Laws/Arithmetic.lean ====
section
/-! SUPPORT. What the arithmetic, logic, rotate and bit operations do (43_arith8.md, 44_control.md, 45_arith16.md,
46_rotate_shift.md, 47_bit.md). -/

set_option linter.unusedSimpArgs false

namespace Sys2Proof.Machine

/-! ## 8-bit arithmetic and logic -/

theorem run_alu_reg (op : AluOp) (r : Reg8) (s : State) :
    alu op (.reg r) s = .ok () (s.withRegs fun g => g.setAF (aluResult op g.a (g.get8 r) g.flags.c)) := rfl

theorem run_alu_imm (op : AluOp) (n : Byte) (s : State) :
    alu op (.imm n) s = .ok () (s.withRegs fun g => g.setAF (aluResult op g.a n g.flags.c)) := rfl

theorem run_alu_mem {s : State} {m : Mem8} (op : AluOp) (h : s.calmEA m = true) (h1 : s.calmRead (s.regs.memEA m) = true)
    (hr : s.room (eaTime 5 m + 3)) :
    alu op m.src s = .ok () ((s.withRegs fun g =>
      (g.noteEA m).setAF (aluResult op g.a (s.byteAt (s.regs.memEA m)) g.flags.c)).after (eaTime 5 m + 3)) := by
  unfold alu
  rw [run_bind_ok (run_source_mem h h1 hr), run_modRegs]
  simp only [State.after_withRegs, State.after_store, State.withRegs_store, State.withRegs_withRegs, State.after_after,
    State.after_regs, State.withRegs_regs, State.store_regs, byteAt_after, byteAt_withRegs, Regs.noteEA_flags,
    Regs.noteEA_a, Int.add_assoc]

theorem run_incMem {s : State} {m : Mem8} (h : s.calmEA m = true) (h1 : s.calmData (s.regs.memEA m) = true)
    (hr : s.room (eaTime 5 m + 7)) :
    incMem m s = .ok () (((s.store (s.regs.memEA m) (s.byteAt (s.regs.memEA m) + 1)).withRegs fun g =>
      (g.noteEA m).setFlags (inc8 (s.byteAt (s.regs.memEA m)) g.flags).2).after (eaTime 5 m + 7)) := by
  simp only [State.calmData, Bool.and_eq_true] at h1
  have hi := calmIdle_of_calmRead h1.1
  unfold incMem
  rw [run_bind_ok (run_memAddr m h (State.room_le hr (by omega))),
    run_bind_ok (run_mr (by simpa using h1.1) (by simpa using State.room_le hr (by omega))),
    run_bind_ok (run_internal (by simpa using hi) (by simpa using State.room_le hr (by omega))),
    run_bind_ok (run_mw _ (by simpa using h1.2) (by simpa [Int.add_assoc] using hr)), run_modRegs]
  simp only [State.after_withRegs, State.after_store, State.withRegs_store, State.withRegs_withRegs, State.after_after,
    State.after_regs, State.withRegs_regs, State.store_regs, byteAt_after, byteAt_withRegs, Regs.noteEA_flags,
    Regs.noteEA_a, Int.add_assoc]
  rfl

theorem run_decMem {s : State} {m : Mem8} (h : s.calmEA m = true) (h1 : s.calmData (s.regs.memEA m) = true)
    (hr : s.room (eaTime 5 m + 7)) :
    decMem m s = .ok () (((s.store (s.regs.memEA m) (s.byteAt (s.regs.memEA m) - 1)).withRegs fun g =>
      (g.noteEA m).setFlags (dec8 (s.byteAt (s.regs.memEA m)) g.flags).2).after (eaTime 5 m + 7)) := by
  simp only [State.calmData, Bool.and_eq_true] at h1
  have hi := calmIdle_of_calmRead h1.1
  unfold decMem
  rw [run_bind_ok (run_memAddr m h (State.room_le hr (by omega))),
    run_bind_ok (run_mr (by simpa using h1.1) (by simpa using State.room_le hr (by omega))),
    run_bind_ok (run_internal (by simpa using hi) (by simpa using State.room_le hr (by omega))),
    run_bind_ok (run_mw _ (by simpa using h1.2) (by simpa [Int.add_assoc] using hr)), run_modRegs]
  simp only [State.after_withRegs, State.after_store, State.withRegs_store, State.withRegs_withRegs, State.after_after,
    State.after_regs, State.withRegs_regs, State.store_regs, byteAt_after, byteAt_withRegs, Regs.noteEA_flags,
    Regs.noteEA_a, Int.add_assoc]
  rfl

theorem run_incReg (r : Reg8) (s : State) :
    incReg r s = .ok () (s.withRegs fun g => (g.set8 r (g.get8 r + 1)).setFlags (inc8 (g.get8 r) g.flags).2) := rfl

theorem run_decReg (r : Reg8) (s : State) :
    decReg r s = .ok () (s.withRegs fun g => (g.set8 r (g.get8 r - 1)).setFlags (dec8 (g.get8 r) g.flags).2) := rfl

/-! ## 16-bit arithmetic -/

theorem run_add16 {s : State} (dst src : Reg16) (h : s.calmIdle s.regs.ir = true) (hr : s.room 7) :
    add16 dst src s = .ok () ((s.withRegs fun g =>
      { (g.set16 dst (add16Result (g.get16 dst) (g.get16 src) g.flags).1).setFlags
          (add16Result (g.get16 dst) (g.get16 src) g.flags).2 with wz := g.get16 dst + 1 }).after 7) := by
  unfold add16
  rw [run_bind_ok (run_theRegs s), run_bind_ok (run_internal h hr), run_modRegs]
  rfl

theorem run_adc16 {s : State} (src : Reg16) (h : s.calmIdle s.regs.ir = true) (hr : s.room 7) :
    adc16 src s = .ok () ((s.withRegs fun g =>
      { (g.set16 .hl (adc16Result g.hl (g.get16 src) g.flags.c).1).setFlags
          (adc16Result g.hl (g.get16 src) g.flags.c).2 with wz := g.hl + 1 }).after 7) := by
  unfold adc16
  rw [run_bind_ok (run_theRegs s), run_bind_ok (run_internal h hr), run_modRegs]
  rfl

theorem run_sbc16 {s : State} (src : Reg16) (h : s.calmIdle s.regs.ir = true) (hr : s.room 7) :
    sbc16 src s = .ok () ((s.withRegs fun g =>
      { (g.set16 .hl (sbc16Result g.hl (g.get16 src) g.flags.c).1).setFlags
          (sbc16Result g.hl (g.get16 src) g.flags.c).2 with wz := g.hl + 1 }).after 7) := by
  unfold sbc16
  rw [run_bind_ok (run_theRegs s), run_bind_ok (run_internal h hr), run_modRegs]
  rfl

theorem run_inc16 {s : State} (r : Reg16) (h : s.calmIdle s.regs.ir = true) (hr : s.room 2) :
    inc16 r s = .ok () ((s.withRegs fun g => g.set16 r (g.get16 r + 1)).after 2) := by
  unfold inc16
  rw [run_bind_ok (run_theRegs s), run_bind_ok (run_internal h hr), run_modRegs]
  rfl

theorem run_dec16 {s : State} (r : Reg16) (h : s.calmIdle s.regs.ir = true) (hr : s.room 2) :
    dec16 r s = .ok () ((s.withRegs fun g => g.set16 r (g.get16 r - 1)).after 2) := by
  unfold dec16
  rw [run_bind_ok (run_theRegs s), run_bind_ok (run_internal h hr), run_modRegs]
  rfl

/-! ## Rotates, shifts and bits -/

theorem run_copyInto (copy : Option R7) (v : Byte) (s : State) :
    copyInto copy v s = .ok () (s.withRegs (·.copied copy v)) := by cases copy <;> rfl

theorem run_rotReg (op : RotOp) (r : Reg8) (s : State) :
    rotReg op r s = .ok () (s.withRegs fun g =>
      (g.set8 r (rotResult op (g.get8 r) g.flags).1).setFlags (rotResult op (g.get8 r) g.flags).2) := rfl

theorem run_rotMem {s : State} {m : Mem8} (op : RotOp) (copy : Option R7) (h : s.calmEA m = true)
    (h1 : s.calmData (s.regs.memEA m) = true) (hr : s.room (eaTime 2 m + 7)) :
    rotMem op m copy s =
      .ok () (((s.store (s.regs.memEA m) (rotResult op (s.byteAt (s.regs.memEA m)) s.regs.flags).1).withRegs fun g =>
        ((g.noteEA m).copied copy (rotResult op (s.byteAt (s.regs.memEA m)) g.flags).1).setFlags
          (rotResult op (s.byteAt (s.regs.memEA m)) g.flags).2).after (eaTime 2 m + 7)) := by
  simp only [State.calmData, Bool.and_eq_true] at h1
  have hi := calmIdle_of_calmRead h1.1
  unfold rotMem
  rw [run_bind_ok (run_cbAddr m h (State.room_le hr (by omega))),
    run_bind_ok (run_mr (by simpa using h1.1) (by simpa using State.room_le hr (by omega))),
    run_bind_ok (run_internal (by simpa using hi) (by simpa using State.room_le hr (by omega))),
    run_bind_ok (run_theRegs _)]
  refine (run_bind_ok (run_mw _ (by simpa using h1.2) (by simpa [Int.add_assoc] using hr))).trans ?_
  rw [run_bind_ok (run_copyInto _ _ _), run_modRegs]
  simp only [State.after_withRegs, State.after_store, State.withRegs_store, State.withRegs_withRegs, State.after_after,
    State.after_regs, State.withRegs_regs, State.store_regs, byteAt_after, byteAt_withRegs, Regs.noteEA_flags,
    Regs.noteEA_a, Int.add_assoc]
  rfl

theorem run_resMem {s : State} {m : Mem8} (b : Fin 8) (copy : Option R7) (h : s.calmEA m = true)
    (h1 : s.calmData (s.regs.memEA m) = true) (hr : s.room (eaTime 2 m + 7)) :
    resMem b m copy s =
      .ok () (((s.store (s.regs.memEA m) (resBit b (s.byteAt (s.regs.memEA m)))).withRegs fun g =>
        (g.noteEA m).copied copy (resBit b (s.byteAt (s.regs.memEA m)))).after (eaTime 2 m + 7)) := by
  simp only [State.calmData, Bool.and_eq_true] at h1
  have hi := calmIdle_of_calmRead h1.1
  unfold resMem
  rw [run_bind_ok (run_cbAddr m h (State.room_le hr (by omega))),
    run_bind_ok (run_mr (by simpa using h1.1) (by simpa using State.room_le hr (by omega))),
    run_bind_ok (run_internal (by simpa using hi) (by simpa using State.room_le hr (by omega))),
    run_bind_ok (run_mw _ (by simpa using h1.2) (by simpa [Int.add_assoc] using hr)), run_copyInto]
  simp only [State.after_withRegs, State.after_store, State.withRegs_store, State.withRegs_withRegs, State.after_after,
    State.after_regs, State.withRegs_regs, State.store_regs, byteAt_after, byteAt_withRegs, Regs.noteEA_flags,
    Regs.noteEA_a, Int.add_assoc]
  rfl

theorem run_setMem {s : State} {m : Mem8} (b : Fin 8) (copy : Option R7) (h : s.calmEA m = true)
    (h1 : s.calmData (s.regs.memEA m) = true) (hr : s.room (eaTime 2 m + 7)) :
    setMem b m copy s =
      .ok () (((s.store (s.regs.memEA m) (setBit b (s.byteAt (s.regs.memEA m)))).withRegs fun g =>
        (g.noteEA m).copied copy (setBit b (s.byteAt (s.regs.memEA m)))).after (eaTime 2 m + 7)) := by
  simp only [State.calmData, Bool.and_eq_true] at h1
  have hi := calmIdle_of_calmRead h1.1
  unfold setMem
  rw [run_bind_ok (run_cbAddr m h (State.room_le hr (by omega))),
    run_bind_ok (run_mr (by simpa using h1.1) (by simpa using State.room_le hr (by omega))),
    run_bind_ok (run_internal (by simpa using hi) (by simpa using State.room_le hr (by omega))),
    run_bind_ok (run_mw _ (by simpa using h1.2) (by simpa [Int.add_assoc] using hr)), run_copyInto]
  simp only [State.after_withRegs, State.after_store, State.withRegs_store, State.withRegs_withRegs, State.after_after,
    State.after_regs, State.withRegs_regs, State.store_regs, byteAt_after, byteAt_withRegs, Regs.noteEA_flags,
    Regs.noteEA_a, Int.add_assoc]
  rfl

theorem run_getHL (s : State) : getReg16 .hl s = .ok s.regs.hl s := rfl

theorem run_bitHL {s : State} (b : Fin 8) (h : s.calmRead s.regs.hl = true) (hr : s.room 4) :
    bitHL b s = .ok () ((s.withRegs fun g =>
      g.setFlags (bitFlags b (s.byteAt s.regs.hl) (hi g.wz) g.flags)).after 4) := by
  unfold bitHL
  rw [run_bind_ok (run_getHL s), run_bind_ok (run_mr h (State.room_le hr (by decide))),
    run_bind_ok (run_internal (by simpa using calmIdle_of_calmRead h) (by simpa using hr)), run_modRegs]
  simp only [State.after_withRegs, State.after_store, State.withRegs_store, State.withRegs_withRegs, State.after_after,
    State.after_regs, State.withRegs_regs, State.store_regs, byteAt_after, byteAt_withRegs, Regs.noteEA_flags,
    Regs.noteEA_a, Int.add_assoc]
  rfl

theorem run_bitIdx {s : State} (b : Fin 8) (i : XY) (d : Byte) (h : s.calmIdle (s.regs.pc - 1) = true)
    (h1 : s.calmRead (s.regs.indexed i d) = true) (hr : s.room 6) :
    bitIdx b i d s = .ok () ((s.withRegs fun g =>
      { g.setFlags (bitFlags b (s.byteAt (s.regs.indexed i d)) (hi (s.regs.indexed i d)) g.flags) with wz := s.regs.indexed i d }).after
        6) := by
  unfold bitIdx
  refine (run_bind_ok (run_indexAddr (k := 2) i d h (State.room_le hr (by decide)))).trans ?_
  rw [run_bind_ok (run_mr (by simpa using h1) (by simpa using State.room_le hr (by decide))),
    run_bind_ok (run_internal (by simpa using calmIdle_of_calmRead h1) (by simpa using hr)), run_modRegs]
  simp only [State.after_withRegs, State.after_store, State.withRegs_store, State.withRegs_withRegs, State.after_after,
    State.after_regs, State.withRegs_regs, State.store_regs, byteAt_after, byteAt_withRegs, Regs.noteEA_flags,
    Regs.noteEA_a, Int.add_assoc]
  rfl

theorem run_rld {s : State} (h : s.calmData s.regs.hl = true) (hr : s.room 10) :
    rld s = .ok () (((s.store s.regs.hl (s.byteAt s.regs.hl <<< 4 ||| (s.regs.a &&& 0x0F))).withRegs fun g =>
      { g.setAF ((g.a &&& 0xF0#8) ||| s.byteAt s.regs.hl >>> 4, szpFlags ((g.a &&& 0xF0#8) ||| s.byteAt s.regs.hl >>> 4) g.flags) with
        wz := s.regs.hl + 1 }).after 10) := by
  simp only [State.calmData, Bool.and_eq_true] at h
  have hi := calmIdle_of_calmRead h.1
  unfold rld
  rw [run_bind_ok (run_getHL s), run_bind_ok (run_mr h.1 (State.room_le hr (by decide))),
    run_bind_ok (run_internal (by simpa using hi) (by simpa using State.room_le hr (by decide))),
    run_bind_ok (run_getReg8 _ _), run_bind_ok (run_mw _ (by simpa using h.2) (by simpa using hr)), run_modRegs]
  simp only [State.after_withRegs, State.after_store, State.withRegs_store, State.withRegs_withRegs, State.after_after,
    State.after_regs, State.withRegs_regs, State.store_regs, byteAt_after, byteAt_withRegs, Regs.noteEA_flags,
    Regs.noteEA_a, Int.add_assoc]
  rfl

theorem run_rrd {s : State} (h : s.calmData s.regs.hl = true) (hr : s.room 10) :
    rrd s = .ok () (((s.store s.regs.hl (s.regs.a <<< 4 ||| s.byteAt s.regs.hl >>> 4)).withRegs fun g =>
      { g.setAF ((g.a &&& 0xF0#8) ||| (s.byteAt s.regs.hl &&& 0x0F),
          szpFlags ((g.a &&& 0xF0#8) ||| (s.byteAt s.regs.hl &&& 0x0F)) g.flags) with
        wz := s.regs.hl + 1 }).after 10) := by
  simp only [State.calmData, Bool.and_eq_true] at h
  have hi := calmIdle_of_calmRead h.1
  unfold rrd
  rw [run_bind_ok (run_getHL s), run_bind_ok (run_mr h.1 (State.room_le hr (by decide))),
    run_bind_ok (run_internal (by simpa using hi) (by simpa using State.room_le hr (by decide))),
    run_bind_ok (run_getReg8 _ _), run_bind_ok (run_mw _ (by simpa using h.2) (by simpa using hr)), run_modRegs]
  simp only [State.after_withRegs, State.after_store, State.withRegs_store, State.withRegs_withRegs, State.after_after,
    State.after_regs, State.withRegs_regs, State.store_regs, byteAt_after, byteAt_withRegs, Regs.noteEA_flags,
    Regs.noteEA_a, Int.add_assoc]
  rfl

end Sys2Proof.Machine
end

