-- ==== Sys2Proof/Laws/Decode.lean ====
section
/-! SUPPORT. The decoding tables against the encoder: every page has a row for every byte, and every row gives well-formed
forms whose encoding is the bytes that led to it. -/

namespace Sys2Proof

/-- The bytes read before a page is entered. -/
def Page.bytes : Page → List Byte
  | .cb => [0xCB]
  | .ed => [0xED]
  | .index i => [i.prefixByte]
  | .xcb i => [i.prefixByte, 0xCB]

end Sys2Proof

namespace Sys2Proof.Machine

/-! ## Every page has every row -/

/-- No byte of any page is without a row (30_encoding.md rule R175). -/
theorem fetch_row_exists (b : Byte) :
    (instrTables.main b).isSome ∧ (∀ p, (∀ i, p ≠ .xcb i) → (instrTables.page p b).isSome) ∧
      ∀ i, (instrTables.xcb i b).isSome := by
  have h1 := formTables_eq.main b
  refine ⟨?_, fun p hp => ?_, fun i => ?_⟩
  · cases h : instrTables.main b with
    | none => rw [h] at h1; cases h1
    | some r => rfl
  · have h2 := formTables_eq.page p b
    cases h : instrTables.page p b with
    | some r => rfl
    | none =>
      rw [h] at h2
      cases p with
      | xcb i => exact absurd rfl (hp i)
      | _ => cases h2
  · have h3 := formTables_eq.xcb i b
    cases h : instrTables.xcb i b with
    | none => rw [h] at h3; cases h3
    | some r => rfl

/-! ## What a row's bytes are -/

/-- A form that the bytes `bs` encode, with the bytes `un` left unread. -/
def EncodedAs (f : Form) (bs un : List Byte) (late : Bool) : Prop :=
  f.wf = true ∧ f.encode = bs ++ un ∧ f.unread = un ∧ (match f with
    | .djnz _ => true
    | _ => false) = late

/-- A row reached by the bytes `pre` gives forms that are encoded so. -/
def RowOk (pre : List Byte) : Row Form → Prop
  | .plain f => EncodedAs f pre [] false
  | .dropped f => ∃ i op, pre = [XY.prefixByte i, op] ∧ EncodedAs f [i.prefixByte] [op] false
  | .imm8 g => ∀ n, EncodedAs (g n) (pre ++ [n]) [] false
  | .late8 g => ∀ n, EncodedAs (g n) (pre ++ [n]) [] true
  | .imm16 g => ∀ w, EncodedAs (g w) (pre ++ [lo w, hi w]) [] false
  | .imm8x2 g => ∀ d n, EncodedAs (g d n) (pre ++ [d, n]) [] false
  | .page p => pre = p.bytes

/-- A property of every byte, by its value. -/
theorem byte_cases {P : Byte → Prop} (h : ∀ k : Fin 256, P (BitVec.ofNat 8 k.val)) (b : Byte) : P b := by
  have := h ⟨b.toNat, b.isLt⟩
  simpa using this

set_option maxRecDepth 10000 in
theorem mainForm_ok (b : Byte) : RowOk [b] (mainForm b) := by
  refine byte_cases (P := fun b => RowOk [b] (mainForm b)) (fun k => ?_) b
  fin_cases k <;> first
    | exact ⟨rfl, rfl, rfl, rfl⟩
    | exact fun _ => ⟨rfl, rfl, rfl, rfl⟩
    | exact Eq.refl (α := List Byte) _

set_option maxRecDepth 10000 in
theorem cbForm_ok (b : Byte) : RowOk [0xCB, b] (cbForm b) := by
  refine byte_cases (P := fun b => RowOk [0xCB, b] (cbForm b)) (fun k => ?_) b
  fin_cases k <;> exact ⟨rfl, rfl, rfl, rfl⟩

set_option maxRecDepth 10000 in
theorem edForm_ok (b : Byte) : RowOk [0xED, b] (edForm b) := by
  refine byte_cases (P := fun b => RowOk [0xED, b] (edForm b)) (fun k => ?_) b
  fin_cases k <;> first
    | exact ⟨rfl, rfl, rfl, rfl⟩
    | exact fun _ => ⟨rfl, rfl, rfl, rfl⟩

set_option maxRecDepth 10000 in
theorem indexForm_ok (i : XY) (b : Byte) : RowOk [i.prefixByte, b] (indexForm i b) := by
  refine byte_cases (P := fun b => RowOk [i.prefixByte, b] (indexForm i b)) (fun k => ?_) b
  cases i <;> fin_cases k <;> first
    | exact ⟨rfl, rfl, rfl, rfl⟩
    | exact fun _ => ⟨rfl, rfl, rfl, rfl⟩
    | exact fun _ _ => ⟨rfl, rfl, rfl, rfl⟩
    | exact ⟨.ix, _, rfl, rfl, rfl, rfl, rfl⟩
    | exact ⟨.iy, _, rfl, rfl, rfl, rfl, rfl⟩
    | exact Eq.refl (α := List Byte) _

set_option maxRecDepth 10000 in
theorem xcbForm_ok (i : XY) (d b : Byte) : EncodedAs (xcbForm i b d) [i.prefixByte, 0xCB, d, b] [] false := by
  refine byte_cases (P := fun b => EncodedAs (xcbForm i b d) [i.prefixByte, 0xCB, d, b] [] false) (fun k => ?_) b
  cases i <;> fin_cases k <;> exact ⟨rfl, rfl, rfl, rfl⟩

/-! ## Decoding by form -/

theorem operands_map {α β : Type} (f : α → β) (r : Row α) (t : List Byte) :
    (mapRow f r).operands t = (r.operands t).map fun x => (f x.1, x.2) := by
  cases r <;> simp only [mapRow, Row.operands] <;> (try rfl) <;> (split <;> rfl)

theorem decodeXcb_form {tb : Tables Instr} {tf : Tables Form} (h : FormsOf tb tf) (i : XY) (t : List Byte) :
    decodeXcb tf i t = (decodeXcb tb i t).map fun x => (x.1.form, x.2) := by
  unfold decodeXcb
  split
  · rw [h.xcb]
    cases tb.xcb i _ <;> rfl
  · rfl

theorem decodePage_form {tb : Tables Instr} {tf : Tables Form} (h : FormsOf tb tf) (p : Page) (t : List Byte) :
    decodePage tf p t = (decodePage tb p t).map fun x => (x.1.form, x.2) := by
  cases t with
  | nil => rfl
  | cons b t =>
    simp only [decodePage]
    rw [h.page]
    cases tb.page p b with
    | none => rfl
    | some r =>
      cases r with
      | page q => cases q with
        | xcb i => exact decodeXcb_form h i t
        | _ => rfl
      | dropped i => rfl
      | _ => exact operands_map _ _ _

/-- Decoding gives the form that the field formulas give. -/
theorem decode_form (bytes : List Byte) :
    decodeWith formTables bytes = (decode bytes).map fun x => (x.1.form, x.2) := by
  have h := formTables_eq
  unfold decode
  cases bytes with
  | nil => rfl
  | cons b t =>
    simp only [decodeWith]
    rw [h.main]
    cases instrTables.main b with
    | none => rfl
    | some r =>
      cases r with
      | page p => exact decodePage_form h p t
      | _ => exact operands_map _ _ _

/-- The operands of a row that is not a prefix: they are the bytes the form's encoding adds, or bytes are missing. -/
theorem operands_ok {pre : List Byte} {r : Row Form} (h : RowOk pre r) (hp : ∀ p, r ≠ .page p) (hd : ∀ f, r ≠ .dropped f)
    (t : List Byte) :
    (∃ f t', r.operands t = .ok (f, t') ∧ f.wf = true ∧ f.unread = [] ∧ pre ++ t = f.encode ++ t') ∨
      r.operands t = .error .truncated := by
  cases r with
  | page p => exact absurd rfl (hp p)
  | dropped f => exact absurd rfl (hd f)
  | plain f =>
    obtain ⟨h1, h2, h3, -⟩ := h
    exact .inl ⟨f, t, rfl, h1, h3, by simp [h2]⟩
  | imm8 g =>
    cases t with
    | nil => exact .inr rfl
    | cons n t =>
      obtain ⟨h1, h2, h3, -⟩ := h n
      exact .inl ⟨g n, t, rfl, h1, h3, by simp [h2]⟩
  | late8 g =>
    cases t with
    | nil => exact .inr rfl
    | cons n t =>
      obtain ⟨h1, h2, h3, -⟩ := h n
      exact .inl ⟨g n, t, rfl, h1, h3, by simp [h2]⟩
  | imm16 g =>
    match t with
    | [] => exact .inr rfl
    | [_] => exact .inr rfl
    | l :: u :: t =>
      obtain ⟨h1, h2, h3, -⟩ := h (mkWord u l)
      exact .inl ⟨g (mkWord u l), t, rfl, h1, h3, by simp [h2]⟩
  | imm8x2 g =>
    match t with
    | [] => exact .inr rfl
    | [_] => exact .inr rfl
    | d :: n :: t =>
      obtain ⟨h1, h2, h3, -⟩ := h d n
      exact .inl ⟨g d n, t, rfl, h1, h3, by simp [h2]⟩

theorem pageForm_ok (p : Page) (b : Byte) (r : Row Form) (h : formTables.page p b = some r) : RowOk (p.bytes ++ [b]) r := by
  cases p with
  | cb => cases h; exact cbForm_ok b
  | ed => cases h; exact edForm_ok b
  | index i => cases h; exact indexForm_ok i b
  | xcb i => cases h

/-- What decoding a byte string by form answers: it reads the form's own bytes, or finds too few. -/
def Reads (bytes : List Byte) (ans : Except Reject (Form × List Byte)) : Prop :=
  (∃ f rest t, ans = .ok (f, rest) ∧ f.wf = true ∧ bytes = f.encode ++ t ∧ rest = f.unread ++ t) ∨ ans = .error .truncated

theorem reads_operands {pre : List Byte} {r : Row Form} (t : List Byte) (h : RowOk pre r) (hp : ∀ p, r ≠ .page p)
    (hd : ∀ f, r ≠ .dropped f) : Reads (pre ++ t) (r.operands t) := by
  obtain ⟨f, t', h1, h2, h3, h4⟩ | h := operands_ok h hp hd t
  · exact .inl ⟨f, t', t', h1, h2, h4, by simp [h3]⟩
  · exact .inr h

theorem reads_xcb {pre : List Byte} (i : XY) (t : List Byte) (h : pre = (Page.xcb i).bytes) :
    Reads (pre ++ t) (decodeXcb formTables i t) := by
  match t with
  | [] => exact .inr rfl
  | [_] => exact .inr rfl
  | d :: op :: t' =>
    obtain ⟨h1, h2, h3, -⟩ := xcbForm_ok i d op
    refine .inl ⟨xcbForm i op d, t', t', rfl, h1, ?_, by simp [h3]⟩
    rw [h2, h]; rfl

theorem reads_page {p : Page} (hp : p.bytes.length = 1) (t : List Byte) :
    Reads (p.bytes ++ t) (decodePage formTables p t) := by
  cases t with
  | nil => exact .inr rfl
  | cons c t =>
    have hs : p.bytes ++ c :: t = (p.bytes ++ [c]) ++ t := by simp
    cases hq : formTables.page p c with
    | none => cases p with
      | xcb i => cases hp
      | _ => cases hq
    | some r =>
      have hk := pageForm_ok p c r hq
      have hdec : decodePage formTables p (c :: t) = match r with
          | .page (.xcb i) => decodeXcb formTables i t
          | .dropped i => .ok (i, c :: t)
          | r => r.operands t := by
        simp only [decodePage, hq]
        cases r with
        | page q => cases q <;> rfl
        | _ => rfl
      rw [hdec, hs]
      cases r with
      | dropped f =>
        obtain ⟨i, op, h1, h2, h3, h4, -⟩ := hk
        refine .inl ⟨f, c :: t, t, rfl, h2, by rw [h1, h3]; rfl, ?_⟩
        have : c = op := by simpa using congrArg List.getLast? h1
        rw [h4, this]; rfl
      | page q =>
        have hlen : q.bytes.length = 2 := by
          have h5 := congrArg List.length (show p.bytes ++ [c] = q.bytes from hk)
          rw [← h5]; simp [hp]
        cases q with
        | xcb i => exact reads_xcb i t hk
        | _ => cases hlen
      | _ => exact reads_operands t hk (by simp) (by simp)

/-- Decoding by form reads the form's own bytes, or finds too few. -/
theorem decodeWith_ok (bytes : List Byte) : Reads bytes (decodeWith formTables bytes) := by
  cases bytes with
  | nil => exact .inr rfl
  | cons b t =>
    have hm := mainForm_ok b
    have hdec : decodeWith formTables (b :: t) = match mainForm b with
        | .page p => decodePage formTables p t
        | r => r.operands t := by
      simp only [decodeWith, formTables]
      cases mainForm b <;> rfl
    rw [hdec]
    cases hr : mainForm b with
    | page p =>
      rw [hr] at hm
      have hb : [b] = p.bytes := hm
      have := reads_page (p := p) (by rw [← hb]; rfl) t
      rw [← hb] at this
      exact this
    | dropped f =>
      rw [hr] at hm
      obtain ⟨i, op, h1, -⟩ := hm
      cases h1
    | _ =>
      rw [hr] at hm
      exact reads_operands t hm (by simp) (by simp)

/-- The only way to fail is to run out of bytes. -/
theorem decode_only_truncated {bytes : List Byte} {e : Reject} (h : decode bytes = .error e) : e = .truncated := by
  have hf := decode_form bytes
  rw [h] at hf
  obtain ⟨f, rest, t, h1, -⟩ | h1 := decodeWith_ok bytes
  · rw [h1] at hf; cases hf
  · rw [h1] at hf; cases hf; rfl

end Sys2Proof.Machine
end

