-- ==== Sys2Proof/Laws/Fetch.lean ====
section
/-! SUPPORT. What fetching the bytes of an instruction does where every cycle is calm. -/

namespace Sys2Proof.Machine

theorem run_imm8 {s : State} (h : s.calmRead s.regs.pc = true) (hr : s.room 3) :
    imm8 s = .ok (s.byteAt s.regs.pc) ((s.withRegs fun g => { g with pc := g.pc + 1 }).after 3) := by
  unfold imm8
  rw [run_bind_ok (run_theRegs s), run_bind_ok (run_mr h hr), run_bind_ok (run_stepPc _)]
  rfl

theorem run_fetchOp {s : State} (h : s.calmFetch s.regs.pc = true) (hr : s.room 4) :
    fetchOp s = .ok (s.byteAt s.regs.pc) ((s.withRegs fun g => { g with pc := g.pc + 1, r := bumpR g.r }).after 4) := by
  unfold fetchOp
  rw [run_bind_ok (run_theRegs s), run_bind_ok (run_m1 h hr), run_bind_ok (run_stepPc _)]
  rfl

theorem run_imm16 {s : State} (h : s.calmRead s.regs.pc = true) (h1 : s.calmRead (s.regs.pc + 1) = true) (hr : s.room 6) :
    imm16 s = .ok (s.wordAt s.regs.pc) ((s.withRegs fun g => { g with pc := g.pc + 1 + 1 }).after 6) := by
  unfold imm16
  rw [run_bind_ok (run_imm8 h (State.room_le hr (by decide))),
    run_bind_ok (run_imm8 (by simpa using h1) (by simpa using hr)), run_pure]
  simp only [State.after_withRegs, State.withRegs_withRegs, State.after_after, byteAt_after, byteAt_withRegs]
  rfl

/-- The first `n` bytes at PC are calm to read. -/
def State.calmBytes (s : State) (n : Nat) : Prop := ∀ k < n, s.calmRead (s.regs.pc + BitVec.ofNat 16 k) = true

theorem State.calmBytes_zero {s : State} {n : Nat} (h : s.calmBytes n) (hn : 0 < n) : s.calmRead s.regs.pc = true := by
  have := h 0 hn
  simpa using this

theorem State.calmBytes_one {s : State} {n : Nat} (h : s.calmBytes n) (hn : 1 < n) :
    s.calmRead (s.regs.pc + 1) = true := h 1 hn

theorem pc_two (x : Word) : x + 1 + 1 = x + BitVec.ofNat 16 2 := by rw [BitVec.add_assoc]; rfl

/-- The operand bytes of a row are fetched as the decoder reads them. -/
theorem run_fetchRow {pre : List Byte} {r : Row Form} {s : State} {f : Form} {t rest : List Byte} (hk : RowOk pre r)
    (hp : ∀ p, r ≠ .page p) (hd : ∀ f, r ≠ .dropped f)
    (hdec : r.operands (s.byteAt s.regs.pc :: s.byteAt (s.regs.pc + 1) :: t) = .ok (f, rest))
    (hc : s.calmBytes (f.encode.length - pre.length)) (hidle : isDjnz f = true → s.calmIdle s.regs.ir = true)
    (hr : s.room (3 * (f.encode.length - pre.length : Nat) + if isDjnz f then 1 else 0)) :
    fetchRow r s = .ok f
      (((s.withRegs fun g => { g with pc := g.pc + BitVec.ofNat 16 (f.encode.length - pre.length) }).after
        (3 * (f.encode.length - pre.length : Nat) + if isDjnz f then 1 else 0))) := by
  cases r with
  | page p => exact absurd rfl (hp p)
  | dropped f => exact absurd rfl (hd f)
  | plain g =>
    simp only [Row.operands] at hdec
    cases hdec
    obtain ⟨h1, h2, h3, h4⟩ := hk
    have hj : isDjnz f = false := by cases f <;> first | rfl | cases h4
    simp [h2, fetchRow, run_pure, hj, State.withRegs, State.after]
  | imm8 g =>
    simp only [Row.operands] at hdec
    cases hdec
    obtain ⟨h1, h2, h3, h4⟩ := hk (s.byteAt s.regs.pc)
    have hj : isDjnz (g (s.byteAt s.regs.pc)) = false := by
      generalize g (s.byteAt s.regs.pc) = f at h4
      cases f <;> first | rfl | cases h4
    have hlen : (g (s.byteAt s.regs.pc)).encode.length - pre.length = 1 := by rw [h2]; simp
    rw [hlen] at hc hr ⊢
    simp only [hj] at hr ⊢
    simp only [fetchRow]
    rw [run_bind_ok (run_imm8 (State.calmBytes_zero hc (by decide)) (by simpa using hr)), run_pure]
    rfl
  | late8 g =>
    simp only [Row.operands] at hdec
    cases hdec
    obtain ⟨h1, h2, h3, h4⟩ := hk (s.byteAt s.regs.pc)
    have hj : isDjnz (g (s.byteAt s.regs.pc)) = true := by
      generalize g (s.byteAt s.regs.pc) = f at h4
      cases f <;> first | rfl | cases h4
    have hlen : (g (s.byteAt s.regs.pc)).encode.length - pre.length = 1 := by rw [h2]; simp
    rw [hlen] at hc hr ⊢
    simp only [hj, if_true] at hr ⊢
    simp only [fetchRow]
    rw [run_bind_ok (run_theRegs s), run_bind_ok (run_internal (hidle hj) (State.room_le hr (by decide))),
      run_bind_ok (run_imm8 (by simpa using State.calmBytes_zero hc (by decide))
        (by simp only [State.room_after]; exact State.room_le hr (by decide))), run_pure]
    simp only [State.after_withRegs, State.after_after, byteAt_after, State.after_regs]
    rfl
  | imm16 g =>
    simp only [Row.operands] at hdec
    cases hdec
    obtain ⟨h1, h2, h3, h4⟩ := hk (mkWord (s.byteAt (s.regs.pc + 1)) (s.byteAt s.regs.pc))
    have hj : isDjnz (g (mkWord (s.byteAt (s.regs.pc + 1)) (s.byteAt s.regs.pc))) = false := by
      generalize g (mkWord (s.byteAt (s.regs.pc + 1)) (s.byteAt s.regs.pc)) = f at h4
      cases f <;> first | rfl | cases h4
    have hlen : (g (mkWord (s.byteAt (s.regs.pc + 1)) (s.byteAt s.regs.pc))).encode.length - pre.length = 2 := by rw [h2]; simp
    rw [hlen] at hc hr ⊢
    simp only [hj] at hr ⊢
    simp only [fetchRow]
    rw [run_bind_ok (run_imm16 (State.calmBytes_zero hc (by decide)) (State.calmBytes_one hc (by decide))
      (by simpa using hr)), run_pure]
    simp only [pc_two]
    rfl
  | imm8x2 g =>
    simp only [Row.operands] at hdec
    cases hdec
    obtain ⟨h1, h2, h3, h4⟩ := hk (s.byteAt s.regs.pc) (s.byteAt (s.regs.pc + 1))
    have hj : isDjnz (g (s.byteAt s.regs.pc) (s.byteAt (s.regs.pc + 1))) = false := by
      generalize g (s.byteAt s.regs.pc) (s.byteAt (s.regs.pc + 1)) = f at h4
      cases f <;> first | rfl | cases h4
    have hlen : (g (s.byteAt s.regs.pc) (s.byteAt (s.regs.pc + 1))).encode.length - pre.length = 2 := by rw [h2]; simp
    rw [hlen] at hc hr ⊢
    simp only [hj] at hr ⊢
    simp only [fetchRow]
    rw [run_bind_ok (run_imm8 (State.calmBytes_zero hc (by decide)) (State.room_le hr (by decide))),
      run_bind_ok (run_imm8 (by simpa using State.calmBytes_one hc (by decide)) (by simpa using hr)), run_pure]
    simp only [State.after_withRegs, State.withRegs_withRegs, State.after_after, pc_two]
    rfl

/-! ## A whole instruction -/

/-- The prefix bytes. -/
def isPrefix (b : Byte) : Bool := b == 0xCB || b == 0xED || b == 0xDD || b == 0xFD

set_option maxRecDepth 10000 in
theorem mainForm_plain (b : Byte) : (match mainForm b with
    | .page _ => true
    | _ => false) = isPrefix b := by
  refine byte_cases (P := fun b => (match mainForm b with
    | .page _ => true
    | _ => false) = isPrefix b) (fun k => ?_) b
  fin_cases k <;> rfl

theorem fetchCount_eq (b : Byte) (t : List Byte) : fetchCount (b :: t) = if isPrefix b then 2 else 1 := by
  simp only [fetchCount, List.head?_cons, isPrefix, Bool.or_eq_true, beq_iff_eq, or_assoc]

/-- What is left of an instruction after `n` opcode fetches at PC. -/
theorem calmInstr_bytes {s : State} {f : Form} (h : s.calmInstr f = true) :
    (∀ k < f.encode.length, k < fetchCount f.encode → s.calmFetch (s.regs.pc + BitVec.ofNat 16 k) = true) ∧
      (∀ k < f.encode.length, fetchCount f.encode ≤ k → s.calmRead (s.regs.pc + BitVec.ofNat 16 k) = true) ∧
      (isDjnz f = true → s.calmIdle (mkWord s.regs.i (bumpR s.regs.r)) = true) := by
  simp only [State.calmInstr, Bool.and_eq_true, List.all_eq_true, List.mem_range] at h
  refine ⟨fun k hk hn => ?_, fun k hk hn => ?_, fun hj => ?_⟩
  · have := h.1 k hk
    simpa [hn] using this
  · have := h.1 k hk
    simpa [Nat.not_lt.mpr hn] using this
  · simpa [hj] using h.2

theorem encode_length_of_rowOk {pre : List Byte} {r : Row Form} {l rest : List Byte} {f : Form} (hk : RowOk pre r)
    (hp : ∀ p, r ≠ .page p) (hd : ∀ f, r ≠ .dropped f) (hdec : r.operands l = .ok (f, rest)) :
    ∃ t, f.encode = pre ++ t := by
  cases r with
  | page p => exact absurd rfl (hp p)
  | dropped f => exact absurd rfl (hd f)
  | plain g => cases hdec; exact ⟨[], by rw [hk.2.1]⟩
  | imm8 g => match l with
    | [] => cases hdec
    | n :: _ => cases hdec; exact ⟨[n], by rw [(hk n).2.1]; simp⟩
  | late8 g => match l with
    | [] => cases hdec
    | n :: _ => cases hdec; exact ⟨[n], by rw [(hk n).2.1]; simp⟩
  | imm16 g => match l with
    | [] => cases hdec
    | [_] => cases hdec
    | x :: y :: _ => cases hdec; exact ⟨_, by rw [(hk (mkWord y x)).2.1, List.append_nil]⟩
  | imm8x2 g => match l with
    | [] => cases hdec
    | [_] => cases hdec
    | x :: y :: _ => cases hdec; exact ⟨_, by rw [(hk x y).2.1, List.append_nil]⟩

theorem pc_past (x : Word) (a b : Nat) : x + BitVec.ofNat 16 a + BitVec.ofNat 16 b = x + BitVec.ofNat 16 (a + b) := by
  rw [BitVec.add_assoc, ← BitVec.ofNat_add]

/-- The state after `n` opcode fetches. -/
def State.pastFetches (s : State) (n : Nat) : State :=
  (s.withRegs fun g => { g with pc := g.pc + BitVec.ofNat 16 n, r := bumpTimes n g.r }).after (4 * n)

theorem fetched_eq (s : State) (f : Form) (n : Nat) (hn : fetchCount f.encode = n) (hle : n ≤ f.encode.length) :
    ((s.pastFetches n).withRegs fun g => { g with pc := g.pc + BitVec.ofNat 16 (f.encode.length - n) }).after
      (3 * (f.encode.length - n : Nat) + if isDjnz f then 1 else 0) = s.fetched f := by
  simp only [State.pastFetches, State.fetched, fetchTime, hn, State.after_withRegs, State.withRegs_withRegs,
    State.after_after, pc_past, Nat.add_sub_cancel' hle, Int.add_assoc]

/-- The rest of an instruction after its opcode fetches. -/
theorem run_rest {s : State} {pre : List Byte} {r : Row Form} {f : Form} {t rest : List Byte} (n : Nat)
    (hn : pre.length = n) (hcount : fetchCount f.encode = n) (hk : RowOk pre r) (hp : ∀ p, r ≠ .page p)
    (hd : ∀ f, r ≠ .dropped f)
    (hdec : r.operands (s.byteAt (s.regs.pc + BitVec.ofNat 16 n) :: s.byteAt (s.regs.pc + BitVec.ofNat 16 n + 1) :: t) =
      .ok (f, rest)) (hc : s.calmInstr f = true) (hn' : n = 1 ∨ isDjnz f = false) (hr : s.room (fetchTime f)) :
    fetchRow r (s.pastFetches n) = .ok f (s.fetched f) := by
  obtain ⟨hf, hb, hj⟩ := calmInstr_bytes hc
  obtain ⟨u, hu⟩ := encode_length_of_rowOk hk hp hd hdec
  have hle : n ≤ f.encode.length := by rw [hu]; simp [hn]
  have hbytes : (s.pastFetches n).calmBytes (f.encode.length - pre.length) := by
    intro k hk'
    have := hb (n + k) (by omega) (by omega)
    rw [← pc_past] at this
    simpa [State.pastFetches] using this
  have hidle : isDjnz f = true → (s.pastFetches n).calmIdle (s.pastFetches n).regs.ir = true := by
    intro hd
    obtain rfl | hd' := hn'
    · exact hj hd
    · rw [hd] at hd'; cases hd'
  have hroom : (s.pastFetches n).room (3 * (f.encode.length - pre.length : Nat) + if isDjnz f then 1 else 0) := by
    simp only [State.pastFetches, State.room_after, State.room_withRegs]
    simp only [fetchTime, hcount] at hr
    rw [hn]
    simpa [Int.add_assoc] using hr
  rw [run_fetchRow (s := s.pastFetches n) hk hp hd hdec hbytes hidle hroom, hn, fetched_eq s f n hcount hle]

theorem run_fetch_one {s : State} (h : s.calmFetch s.regs.pc = true) (hr : s.room 4) :
    fetchOp s = .ok (s.byteAt s.regs.pc) (s.pastFetches 1) := run_fetchOp h hr

theorem run_fetch_two {s : State} (h : s.calmFetch (s.regs.pc + 1) = true) (hr : s.room 8) :
    fetchOp (s.pastFetches 1) = .ok (s.byteAt (s.regs.pc + 1)) (s.pastFetches 2) := by
  have hpc : (s.pastFetches 1).regs.pc = s.regs.pc + 1 := rfl
  rw [run_fetchOp (s := s.pastFetches 1) (by rw [hpc]; exact h)
    (by simp only [State.pastFetches, State.room_after, State.room_withRegs]; exact hr)]
  have hg : (s.pastFetches 1).withRegs (fun g => { g with pc := g.pc + 1, r := bumpR g.r }) =
      (s.withRegs fun g => { g with pc := g.pc + BitVec.ofNat 16 2, r := bumpTimes 2 g.r }).after 4 := by
    have : s.regs.pc + BitVec.ofNat 16 1 + 1 = s.regs.pc + BitVec.ofNat 16 2 := pc_past s.regs.pc 1 1
    simp only [State.pastFetches, State.withRegs, State.after, this, bumpTimes]
    rfl
  rw [hg, State.after_after]
  rfl

theorem isDjnz_of_two {f : Form} (h : fetchCount f.encode = 2) : isDjnz f = false := by
  cases f <;> first
    | rfl
    | exact absurd h (show (1 : Nat) ≠ 2 by decide)

/-- The form at PC is fetched, with every byte in its own cycle. -/
theorem run_fetchInstr {s : State} {f : Form} {rest : List Byte}
    (hdec : decodeWith formTables (s.bytesAt s.regs.pc) = .ok (f, rest)) (hc : s.calmInstr f = true)
    (hr : s.room (fetchTime f)) : (fetchOp >>= fetchFrom formTables) s = .ok f (s.fetched f) := by
  obtain ⟨hf, hb, hj⟩ := calmInstr_bytes hc
  have hm := mainForm_ok (s.byteAt s.regs.pc)
  have hpl := mainForm_plain (s.byteAt s.regs.pc)
  have h3 : s.regs.pc + 3 = s.regs.pc + BitVec.ofNat 16 2 + 1 := by rw [BitVec.add_assoc]; rfl
  have h2 : s.regs.pc + 2 = s.regs.pc + BitVec.ofNat 16 1 + 1 := by rw [BitVec.add_assoc]; rfl
  have hdec' : (∀ p, mainForm (s.byteAt s.regs.pc) = .page p → decodePage formTables p
        [s.byteAt (s.regs.pc + 1), s.byteAt (s.regs.pc + 2), s.byteAt (s.regs.pc + 3)] = .ok (f, rest)) ∧
      ((∀ p, mainForm (s.byteAt s.regs.pc) ≠ .page p) → (mainForm (s.byteAt s.regs.pc)).operands
        [s.byteAt (s.regs.pc + 1), s.byteAt (s.regs.pc + BitVec.ofNat 16 1 + 1), s.byteAt (s.regs.pc + 3)] =
          .ok (f, rest)) := by
    rw [← hdec, ← h2]
    simp only [decodeWith, State.bytesAt, formTables]
    cases mainForm (s.byteAt s.regs.pc) <;> simp
  have htime : 4 * (fetchCount f.encode : Int) ≤ fetchTime f := by
    simp only [fetchTime]; split <;> omega
  cases hrow : mainForm (s.byteAt s.regs.pc) with
  | page p =>
    rw [hrow] at hm hpl
    have hd := hdec'.1 p hrow
    have hpb : p.bytes = [s.byteAt s.regs.pc] := Eq.symm hm
    have hpre : isPrefix (s.byteAt s.regs.pc) = true := hpl.symm
    have hcount (t : List Byte) : fetchCount (p.bytes ++ t) = 2 := by
      rw [hpb, List.singleton_append, fetchCount_eq, hpre]; rfl
    cases hq : formTables.page p (s.byteAt (s.regs.pc + 1)) with
    | none => rw [decodePage, hq] at hd; cases hd
    | some r =>
      have hk := pageForm_ok p _ r hq
      have hlen : (p.bytes ++ [s.byteAt (s.regs.pc + 1)]).length = 2 := by rw [hpb]; rfl
      -- the two opcode fetches, common to every case
      have fetch (hc2 : fetchCount f.encode = 2) (hl2 : 2 ≤ f.encode.length) :
          (fetchOp >>= fetchFrom formTables) s =
            (match r with
              | .page (.xcb i) => fetchXcb formTables i
              | r => fetchRow r) (s.pastFetches 2) := by
        have h0 : s.calmFetch s.regs.pc = true := by simpa using hf 0 (by omega) (by omega)
        have h1 : s.calmFetch (s.regs.pc + 1) = true := hf 1 (by omega) (by omega)
        rw [run_bind_ok (run_fetch_one h0 (State.room_le hr (by omega)))]
        simp only [fetchFrom, show formTables.main = fun b => some (mainForm b) from rfl, hrow, fetchPage]
        rw [run_bind_ok (run_fetch_two h1 (State.room_le hr (by omega)))]
        simp only [hq]
        cases r with
        | page q => cases q <;> rfl
        | _ => rfl
      cases r with
      | dropped g =>
        rw [decodePage, hq] at hd
        cases hd
        obtain ⟨i, op, h1, -, h4, -, -⟩ := hk
        have he : f.encode = p.bytes ++ [s.byteAt (s.regs.pc + 1)] := by rw [h1, h4]; rfl
        have hc2 : fetchCount f.encode = 2 := by rw [he]; exact hcount _
        have hl : f.encode.length = 2 := by rw [he, hlen]
        rw [fetch hc2 (by omega)]
        have hj := isDjnz_of_two hc2
        have := fetched_eq s f 2 hc2 (by omega)
        rw [hl, hj] at this
        simp only [fetchRow, run_pure, ← this]
        simp [State.withRegs, State.after]
      | page q =>
        cases q with
        | xcb i =>
          have hx : decodeXcb formTables i [s.byteAt (s.regs.pc + 2), s.byteAt (s.regs.pc + 3)] = .ok (f, rest) := by
            rw [decodePage, hq] at hd; exact hd
          cases hx
          obtain ⟨-, h5, -, h6⟩ := xcbForm_ok i (s.byteAt (s.regs.pc + 2)) (s.byteAt (s.regs.pc + 3))
          rw [List.append_nil] at h5
          have he : p.bytes ++ [s.byteAt (s.regs.pc + 1)] = [i.prefixByte, 0xCB] := hk
          have hsplit : (xcbForm i (s.byteAt (s.regs.pc + 3)) (s.byteAt (s.regs.pc + 2))).encode =
              p.bytes ++ ([s.byteAt (s.regs.pc + 1)] ++ [s.byteAt (s.regs.pc + 2), s.byteAt (s.regs.pc + 3)]) := by
            rw [h5, ← List.append_assoc, he]; rfl
          have hc2 : fetchCount (xcbForm i (s.byteAt (s.regs.pc + 3)) (s.byteAt (s.regs.pc + 2))).encode = 2 := by
            rw [hsplit]; exact hcount _
          have hl : (xcbForm i (s.byteAt (s.regs.pc + 3)) (s.byteAt (s.regs.pc + 2))).encode.length = 4 := by rw [h5]; rfl
          have hj := isDjnz_of_two hc2
          have hroom : s.room 14 := by
            simp only [fetchTime, hc2, hl, hj] at hr
            exact hr
          have r2 : s.calmRead (s.regs.pc + BitVec.ofNat 16 2) = true := hb 2 (by omega) (by omega)
          have r3 : s.calmRead (s.regs.pc + BitVec.ofNat 16 2 + 1) = true := by
            rw [← h3]; exact hb 3 (by omega) (by omega)
          have hend := fetched_eq s _ 2 hc2 (by omega)
          rw [hl, hj] at hend
          rw [fetch hc2 (by omega)]
          simp only [fetchXcb]
          rw [run_bind_ok (run_imm8 (s := s.pastFetches 2) r2
              (by simp only [State.pastFetches, State.room_after, State.room_withRegs]; exact State.room_le hroom (by decide))),
            run_bind_ok (run_imm8 (by simpa [State.pastFetches] using r3)
              (by simp only [State.pastFetches, State.room_after, State.room_withRegs]; exact State.room_le hroom (by decide)))]
          rw [← hend]
          simp only [State.pastFetches, State.after_withRegs, State.withRegs_withRegs, State.after_after, byteAt_after,
            byteAt_withRegs, State.after_regs, State.withRegs_regs, ← h3, pc_two]
          rfl
        | _ => exact absurd (congrArg List.length (show p.bytes ++ [s.byteAt (s.regs.pc + 1)] = _ from hk)) (by
          rw [hlen]; intro h; cases h)
      | _ =>
        have hd2 := hd
        rw [decodePage, hq] at hd2
        obtain ⟨u, hu⟩ := encode_length_of_rowOk hk (by simp) (by simp) hd2
        have hc2 : fetchCount f.encode = 2 := by rw [hu, List.append_assoc]; exact hcount _
        rw [fetch hc2 (by rw [hu, List.length_append, hlen]; omega)]
        refine run_rest 2 hlen hc2 hk (by simp) (by simp) (t := []) (rest := rest) ?_ hc (.inr (isDjnz_of_two hc2)) hr
        rw [← h3]; exact hd2
  | dropped g =>
    rw [hrow] at hm
    obtain ⟨i, op, h1, -⟩ := hm
    exact absurd (congrArg List.length h1) (by simp)
  | _ =>
    rw [hrow] at hm hpl hdec'
    have hd := hdec'.2 (by simp)
    obtain ⟨u, hu⟩ := encode_length_of_rowOk hm (by simp) (by simp) hd
    have hcount : fetchCount f.encode = 1 := by rw [hu, List.singleton_append, fetchCount_eq, ← hpl]; rfl
    have h0 : s.calmFetch s.regs.pc = true := by simpa using hf 0 (by rw [hu]; simp) (by omega)
    rw [run_bind_ok (run_fetch_one h0 (State.room_le hr (by omega)))]
    simp only [fetchFrom, formTables, hrow]
    exact run_rest 1 rfl hcount hm (by simp) (by simp) hd hc (.inl rfl) hr

end Sys2Proof.Machine
end

