-- ==== Sys2Proof/Laws/Flags.lean ====
section
/-! SUPPORT. `F` as flags and back. -/

namespace Sys2Proof.Machine

@[simp] theorem unpackF_pack (k : Flags) : unpackF k.pack = k := by
  obtain ⟨s, z, y, h, x, pv, n, c⟩ := k
  revert s z y h x pv n c
  decide

@[simp] theorem Regs.flags_setFlags (g : Regs) (k : Flags) : (g.setFlags k).flags = k := unpackF_pack k

@[simp] theorem Regs.flags_setAF (g : Regs) (r : Byte × Flags) : (g.setAF r).flags = r.2 := unpackF_pack r.2

theorem Regs.setFlags_eq (g : Regs) (k : Flags) : g.setFlags k = { g with f := k.pack } := rfl

end Sys2Proof.Machine
end

