-- ==== Sys2Proof/Laws/HostOps.lean ====
section
/-! SUPPORT. What the host's operations rest on: audio boundaries that only go up, a configuration without the debugger's
flags, loads that keep the chain's signals, and debugger reads that change nothing. -/

namespace Sys2Proof.Machine

/-! ## Audio boundaries -/

/-- The boundary after the one at `cc` is strictly greater (00_scope.md rule R7, 55_scheduler_replay.md rule R646). -/
theorem Cfg.nextAudioCc_gt (c : Cfg) (cc : Int) : cc < c.nextAudioCc cc := by
  unfold Cfg.nextAudioCc
  cases h : (pieceAt c.audioNext cc).filter fun n => decide (cc < n) with
  | none => simp only [Option.getD_none]; omega
  | some n => simpa using (Option.filter_eq_some_iff.mp h).2

/-- In a configuration that `PowerOn` takes, a piece gives the boundary it names. -/
theorem Cfg.nextAudioCc_of_piece {c : Cfg} {cc n : Int} (hc : c.audioOk = true) (h : pieceAt c.audioNext cc = some n) :
    c.nextAudioCc cc = n := by
  have hgt : cc < n := by
    obtain ⟨p, hp, rfl⟩ := Option.map_eq_some_iff.mp h
    have hin := List.find?_some hp
    have hv := List.all_eq_true.mp hc p (List.mem_of_find?_eq_some hp)
    simp only [Bool.and_eq_true, decide_eq_true_eq] at hin hv
    omega
  simp [Cfg.nextAudioCc, h, Option.filter, hgt]

/-! ## Power-on -/

/-- A block without the debugger's flags has none on any Cell (10_state.md rule R80). -/
theorem Block.unwatched_cell {b : Block} (h : b.unwatched = true) (i : Nat) : (b.cell i).flags.debugger = false := by
  simp only [Block.unwatched, Bool.and_eq_true, Bool.not_eq_true', List.all_eq_true] at h
  obtain ⟨hbase, hflags⟩ := h
  have get (l : List (Nat × CellFlags)) (hl : ∀ e ∈ l, e.2.debugger = false) :
      (sparseGet b.baseFlags l i).debugger = false := by
    induction l with
    | nil => exact hbase
    | cons e t ih =>
      simp only [sparseGet]
      split
      · exact hl e (List.mem_cons_self ..)
      · exact ih fun e he => hl e (List.mem_cons_of_mem _ he)
  exact get b.flags hflags

/-- After power-on, before the handlers run, `L[0]` wants (10_state.md rule R80). -/
theorem headWants_powerOnState {c : PowerOnConfig} (h : c.links ≠ []) (cc0 : Int) (s : State) :
    headWants (powerOnState c cc0 s).chain = true := by
  obtain ⟨l, t, hl⟩ := List.exists_cons_of_ne_nil h
  simp [powerOnState, headWants, hl, Link.fresh]

/-! ## Snapshots -/

/-- A load that succeeds leaves `L[0]` wanting and the hidden signals right (10_state.md rule R60, 50_bus.md rule R624). -/
theorem State.load_signals {s : State} {d : Snapshot} (h : s.loadOk d = true) :
    headWants (s.load d).chain = true ∧ pagingOk (s.load d).chain = true := by
  simp only [State.loadOk, Bool.and_eq_true] at h
  exact ⟨h.1.1.1.1.1.2, h.1.1.1.1.2⟩

/-! ## Debugger reads -/

/-- A debugger read answers what it reads and changes nothing else (70_reset_and_hazards.md rules R772 and R773). -/
theorem run_debugRead {s : State} {q : DebugRead} {v : DebugValue} (h : s.debugRead q = some v) :
    debugRead q s = .ok () { s with results := s.results ++ [.read v], phase := .suspended } := by
  unfold debugRead
  rw [run_bind_ok (run_get s), h]
  rfl

/-- A debugger read of a Cell that no block has is refused. -/
theorem run_debugRead_none {s : State} {q : DebugRead} (h : s.debugRead q = none) :
    debugRead q s = .error (.refused .badCell) s := by
  unfold debugRead
  rw [run_bind_ok (run_get s), h]
  rfl

end Sys2Proof.Machine
end

