-- ==== Sys2Proof/Laws/Moves.lean ====
section
/-! SUPPORT. What an instruction can do to the state, once and for all: a reflexive and transitive relation between states
that every small change respects (`Atoms`) holds across every instruction (`moves_runForm`). -/

namespace Sys2Proof.Machine

set_option linter.unusedVariables false

variable {α β : Type} {R : State → State → Prop}

/-- The small changes an instruction is made of. -/
structure Atoms (R : State → State → Prop) : Prop where
  refl : ∀ s, R s s
  trans : ∀ s t u, R s t → R t u → R s u
  regs : ∀ s g, R s { s with regs := g }
  time : ∀ s k, 0 ≤ k → R s (s.after k)
  exits : ∀ s e, R s { s with pendingExit := e }
  log : ∀ s l, R s { s with accessLog := l }
  call : ∀ s l, R s { s with callouts := l }
  data : ∀ s r c v, s.mem.cell? r = some c → R s { s with mem := s.mem.setData r v }
  flags : ∀ s r c f, s.mem.cell? r = some c → r.block ≠ sinkId → R s { s with mem := s.mem.setFlags r f }
  links : ∀ s l, (headWants s.chain = true → headWants l = true) → R s { s with chain := l }
  map : ∀ s q, q.ok s.cfg s.mem = true → q.read.block ≠ sinkId →
    R s { s with pages := s.pages.push s.cfg q s.nextHandle, nextHandle := s.nextHandle + 1 }
  unmap : ∀ s h, (s.pages.any fun st => !st.isEmpty && (st.filter (·.handle != h)).isEmpty) = false →
    R s { s with pages := s.pages.remove h }
  replay : ∀ s bi rm rb, R s { s with byteIx := bi, replayMode := rm, recBytes := rb }
  latch : ∀ s op, R s { s with latch := op }

/-- Where the action ends normally, the state it leaves is related to the one it began in. -/
def Moves (R : State → State → Prop) (m : M α) : Prop := ∀ s a t, m s = .ok a t → R s t

/-! ## Ways of building actions -/

theorem moves_pure (h : Atoms R) (a : α) : Moves R (pure a : M α) := by
  intro s b t he; cases he; exact h.refl s

theorem moves_get (h : Atoms R) : Moves R (get : M State) := by
  intro s b t he; cases he; exact h.refl s

theorem moves_fault (r : Fault) : Moves R (M.fault r : M α) := by
  intro s b t he; cases he

theorem moves_refuse (r : Refusal) : Moves R (M.refuse r : M α) := by
  intro s b t he; cases he

theorem moves_bind (h : Atoms R) {m : M α} {f : α → M β} (hm : Moves R m) (hf : ∀ a, Moves R (f a)) :
    Moves R (m >>= f) := by
  intro s b t he
  rw [run_bind] at he
  cases hs : m s with
  | error e u => rw [hs] at he; cases he
  | ok a u => rw [hs] at he; exact h.trans _ _ _ (hm _ _ _ hs) (hf a _ _ _ he)

/-- A bind on the state as it stands. -/
theorem moves_get_bind {f : State → M β} (hf : ∀ s b t, f s s = .ok b t → R s t) : Moves R ((get : M State) >>= f) := by
  intro s b t he
  exact hf s b t he

theorem moves_modify {f : State → State} (hf : ∀ s, R s (f s)) : Moves R (modify f : M PUnit) := by
  intro s b t he; cases he; exact hf s

theorem moves_map (h : Atoms R) {m : M α} (f : α → β) (hm : Moves R m) : Moves R (f <$> m) := by
  rw [← bind_pure_comp]
  exact moves_bind h hm fun a => moves_pure h (f a)

theorem moves_ite {c : Prop} [Decidable c] {m n : M α} (hm : Moves R m) (hn : Moves R n) : Moves R (if c then m else n) := by
  split <;> assumption

theorem moves_foldlM (h : Atoms R) {f : β → α → M β} (hf : ∀ b a, Moves R (f b a)) (l : List α) (b : β) :
    Moves R (l.foldlM f b) := by
  induction l generalizing b with
  | nil => exact moves_pure h b
  | cons a t ih => exact moves_bind h (hf b a) fun b' => ih b'

theorem moves_forM (h : Atoms R) {f : α → M PUnit} (hf : ∀ a, Moves R (f a)) (l : List α) : Moves R (l.forM f) := by
  induction l with
  | nil => exact moves_pure h _
  | cons a t ih => exact moves_bind h (hf a) fun _ => ih

theorem moves_mapM (h : Atoms R) {f : α → M β} (hf : ∀ a, Moves R (f a)) (l : List α) : Moves R (l.mapM f) := by
  induction l with
  | nil => exact moves_pure h _
  | cons a t ih =>
    rw [List.mapM_cons]
    exact moves_bind h (hf a) fun b => moves_bind h ih fun bs => moves_pure h _

/-! ## Small actions -/

theorem moves_modRegs (h : Atoms R) (f : Regs → Regs) : Moves R (modRegs f) := moves_modify fun s => h.regs s _

theorem moves_theRegs (h : Atoms R) : Moves R theRegs := moves_bind h (moves_get h) fun s => moves_pure h s.regs

theorem moves_tick (h : Atoms R) {k : Int} (hk : 0 ≤ k) : Moves R (tick k) := by
  intro s b t he
  rw [run_tick] at he
  split at he
  · cases he
  · cases he; exact h.time s k hk

theorem moves_latchExit (h : Atoms R) (e : ExitReason) : Moves R (latchExit e) := moves_modify fun s => h.exits s _
theorem moves_logAccess (h : Atoms R) (k : AccessKind) (a : Word) : Moves R (logAccess k a) := moves_modify fun s => h.log s _
theorem moves_callOut (h : Atoms R) (c : Callout) : Moves R (callOut c) := moves_modify fun s => h.call s _

theorem moves_cellAt (h : Atoms R) (r : Ref) : Moves R (cellAt r) := by
  unfold cellAt
  refine moves_bind h (moves_get h) fun s => ?_
  split
  · exact moves_pure h _
  · exact moves_fault _

theorem moves_active (h : Atoms R) (a : Word) : Moves R (active a) := by
  unfold active
  refine moves_bind h (moves_get h) fun s => ?_
  split
  · exact moves_pure h _
  · exact moves_fault _

theorem moves_waitFor (h : Atoms R) (a : Word) (m : Mapping) (c : CellView) : Moves R (waitFor a m c) := by
  unfold waitFor
  refine moves_bind h (moves_get h) fun s => moves_ite ?_ (moves_pure h _)
  split
  · exact moves_tick h (Int.natCast_nonneg _)
  · dsimp only
    split
    · exact moves_fault _
    · exact moves_tick h (by omega)

theorem moves_ioWait (h : Atoms R) (p : Word) : Moves R (ioWait p) := by
  unfold ioWait
  refine moves_bind h (moves_get h) fun s => moves_ite ?_ (moves_pure h _)
  dsimp only
  split
  · exact moves_fault _
  · exact moves_tick h (by omega)

/-! ## The bus -/

theorem headWants_modify {chain : List Link} {i : Nat} {f : Link → Link}
    (hf : i ≠ 0 ∨ ∀ l, l.want = true → (f l).want = true) (h : headWants chain = true) :
    headWants (chain.modify i f) = true := by
  cases chain with
  | nil => cases h
  | cons l t =>
    cases i with
    | zero => exact (hf.resolve_left fun h0 => h0 rfl) l h
    | succ k => exact h

/-- Changing link `i` moves where `L[0]` keeps wanting. -/
theorem moves_modLink (h : Atoms R) {i : Nat} {f : Link → Link} (hf : i ≠ 0 ∨ ∀ l, l.want = true → (f l).want = true) :
    Moves R (modLink i f) := moves_modify fun s => h.links s _ (headWants_modify hf)

theorem moves_mapPages (h : Atoms R) (q : MapReq) : Moves R (mapPages q) := by
  unfold mapPages
  refine moves_get_bind fun s b t he => ?_
  split at he
  · cases he
  · next hok =>
    split at he
    · cases he
    · next hs =>
      rw [run_bind_ok (run_set _ _)] at he
      cases he
      exact h.map s q (by simpa using hok) (by simpa using hs)

theorem moves_unmapPages (h : Atoms R) (handle : Nat) : Moves R (unmapPages handle) := by
  unfold unmapPages
  refine moves_get_bind fun s b t he => ?_
  split at he
  · cases he
  · split at he
    · cases he
    · next he2 =>
      cases he
      exact h.unmap s handle (by simpa using he2)

theorem moves_mapOwn (h : Atoms R) (i : Nat) : Moves R (mapOwn i) := by
  unfold mapOwn
  refine moves_bind h (moves_get h) fun s => ?_
  split
  · exact moves_pure h _
  · exact moves_bind h (moves_mapM h (fun q => moves_mapPages h q) _) fun _ =>
      moves_bind h (moves_forM h (fun x => moves_unmapPages h x) _) fun _ => moves_modLink h (.inr fun _ hw => hw)

theorem moves_setRomVisible (h : Atoms R) (j : Nat) (v : Bool) : Moves R (setRomVisible j v) := by
  induction j generalizing v with
  | zero =>
    unfold setRomVisible
    refine moves_bind h (moves_modLink h (.inr fun _ hw => hw)) fun _ => moves_bind h (moves_get h) fun s => ?_
    split
    · exact moves_mapOwn h _
    · exact moves_pure h _
    · exact moves_pure h _
  | succ k ih =>
    unfold setRomVisible
    refine moves_bind h (moves_modLink h (.inr fun _ hw => hw)) fun _ => moves_bind h (moves_get h) fun s => ?_
    split
    · exact moves_mapOwn h _
    · exact moves_pure h _
    · exact ih _

theorem moves_startWanting (h : Atoms R) (i : Nat) : Moves R (startWanting i) := by
  unfold startWanting
  refine moves_bind h (moves_get h) fun s => moves_ite (moves_pure h _) ?_
  refine moves_bind h (moves_modLink h (.inr fun _ _ => rfl)) fun _ => ?_
  have hrest : Moves R (do
      if (← get).hidden i then return ()
      mapOwn i) := moves_bind h (moves_get h) fun s => moves_ite (moves_pure h _) (moves_mapOwn h i)
  cases i with
  | zero => exact hrest
  | succ j => exact moves_bind h (moves_setRomVisible h j false) fun _ => hrest

theorem moves_stopWanting (h : Atoms R) (i : Nat) : Moves R (stopWanting i) := by
  unfold stopWanting
  cases i with
  | zero => exact moves_refuse _
  | succ j =>
    refine moves_bind h (moves_get h) fun s => moves_ite (moves_pure h _) ?_
    exact moves_bind h (moves_modLink h (.inl (Nat.succ_ne_zero j))) fun _ => moves_bind h (moves_get h) fun s =>
      moves_ite (moves_pure h _) (moves_setRomVisible h j true)

theorem moves_pokeCell (h : Atoms R) (r : Ref) (v : Byte) : Moves R (pokeCell r v) := by
  unfold pokeCell
  refine moves_get_bind fun s b t he => ?_
  cases hc : s.mem.cell? r with
  | none => simp only [hc] at he; cases he
  | some c => simp only [hc] at he; cases he; exact h.data s r c v hc

theorem moves_pokeFlags (h : Atoms R) (r : Ref) (f : CellFlags) : Moves R (pokeFlags r f) := by
  unfold pokeFlags
  refine moves_get_bind fun s b t he => ?_
  cases hc : s.mem.cell? r with
  | none => simp only [hc] at he; cases he
  | some c =>
    simp only [hc] at he
    split at he
    · cases he
    · next hs => cases he; exact h.flags s r c f hc (by simpa using hs)

theorem moves_unmapTag (h : Atoms R) (i tag : Nat) : Moves R (unmapTag i tag) := by
  unfold unmapTag
  refine moves_bind h (moves_get h) fun s => ?_
  split
  · exact moves_pure h _
  · exact moves_bind h (moves_unmapPages h _) fun _ => moves_modLink h (.inr fun _ hw => hw)

theorem moves_applyEffect (h : Atoms R) (i : Nat) (p : Bool) (e : Effect) : Moves R (applyEffect i p e) := by
  cases e with
  | map tag q =>
    exact moves_bind h (moves_mapPages h q) fun _ => moves_bind h (moves_unmapTag h i tag) fun _ => moves_modLink h (.inr fun _ hw => hw)
  | unmap tag => exact moves_unmapTag h i tag
  | wantPaging b => cases b <;> [exact moves_stopWanting h i; exact moves_startWanting h i]
  | refreshOverlay => exact moves_bind h (moves_get h) fun s => moves_ite (moves_mapOwn h i) (moves_pure h _)
  | writeCell b k v => exact moves_pokeCell h _ v
  | setFlags b k f => exact moves_pokeFlags h _ f
  | setRegs ws => exact moves_ite (moves_modRegs h _) (moves_refuse _)
  | requestNMI => exact moves_modRegs h fun g => { g with nmiPending := true }
  | hostOnly => exact moves_refuse _

theorem moves_runHandler (h : Atoms R) (i : Nat) (p : Bool) (hd : Handler) (call : HandlerCall) :
    Moves R (runHandler i p hd call) := by
  unfold runHandler
  exact moves_bind h (moves_modLink h (.inr fun _ hw => hw)) fun _ =>
    moves_bind h (moves_forM h (fun e => moves_applyEffect h i p e) _) fun _ => moves_pure h _

theorem moves_foldChain (h : Atoms R) {f : α → Nat → Link → M α} (hf : ∀ a i l, Moves R (f a i l)) (x : α) :
    Moves R (foldChain f x) := by
  unfold foldChain
  refine moves_bind h (moves_get h) fun s => moves_foldlM h (fun y i => moves_bind h (moves_get h) fun s => ?_) _ _
  split
  · exact hf _ _ _
  · exact moves_pure h _

theorem moves_busIn (h : Atoms R) (p : Word) : Moves R (busIn p) := by
  unfold busIn
  refine moves_bind h (moves_foldChain h (fun ad i l => ?_) _) fun _ => moves_bind h (moves_get h) fun s => moves_pure h _
  dsimp only
  split
  · exact moves_ite (moves_bind h (moves_get h) fun s => moves_bind h (moves_runHandler h _ _ _ _) fun _ => moves_pure h _)
      (moves_pure h _)
  · exact moves_pure h _

theorem moves_busOut (h : Atoms R) (p : Word) (v : Byte) : Moves R (busOut p v) := by
  unfold busOut
  refine moves_foldChain h (fun ad i l => ?_) _
  split
  · exact moves_ite (moves_bind h (moves_get h) fun s => moves_bind h (moves_runHandler h _ _ _ _) fun _ => moves_pure h _)
      (moves_pure h _)
  · exact moves_pure h _

theorem moves_mmioRead (h : Atoms R) (a : Word) (v : Byte) : Moves R (mmioRead a v) := by
  unfold mmioRead
  refine moves_foldChain h (fun ad i l => ?_) _
  split
  · exact moves_bind h (moves_get h) fun s => moves_bind h (moves_runHandler h _ _ _ _) fun _ => moves_pure h _
  · exact moves_pure h _

theorem moves_mmioWrite (h : Atoms R) (a : Word) (v : Byte) : Moves R (mmioWrite a v) := by
  unfold mmioWrite
  refine moves_foldChain h (fun ad i l => ?_) _
  split
  · exact moves_bind h (moves_get h) fun s => moves_bind h (moves_runHandler h _ _ _ _) fun _ => moves_pure h _
  · exact moves_pure h _

theorem moves_patchFetch (h : Atoms R) (a : Word) (op : Byte) : Moves R (patchFetch a op) := by
  unfold patchFetch
  refine moves_foldChain h (fun ad i l => ?_) _
  split
  · exact moves_bind h (moves_get h) fun s => moves_bind h (moves_runHandler h _ _ _ _) fun _ => moves_pure h _
  · exact moves_pure h _

theorem moves_lifecycle (h : Atoms R) (pick : Handlers → Handler) (call : Nat → HandlerCall) :
    Moves R (lifecycle pick call) := by
  unfold lifecycle
  exact moves_foldChain h (fun ad i l => moves_bind h (moves_runHandler h _ _ _ _) fun _ => moves_pure h _) _

theorem moves_replayIn (h : Atoms R) (v : Byte) : Moves R (replayIn v) := by
  unfold replayIn
  refine moves_get_bind fun s b t he => ?_
  cases hm : s.replayMode with
  | playing =>
    simp only [hm] at he
    cases hb : s.stream[s.frameIx]?.bind (·.inputs[s.byteIx]?) with
    | none =>
      simp only [hb] at he
      rw [run_bind_ok (run_set _ _)] at he
      cases he; exact h.replay s _ _ _
    | some b =>
      simp only [hb] at he
      rw [run_bind_ok (run_set _ _)] at he
      cases he; exact h.replay s _ _ _
  | recording =>
    simp only [hm] at he
    rw [run_bind_ok (run_set _ _)] at he
    cases he; exact h.replay s _ _ _
  | idle => simp only [hm] at he; cases he; exact h.refl s
  | endOfFile => simp only [hm] at he; cases he; exact h.refl s
  | outOfSync => simp only [hm] at he; cases he; exact h.refl s

/-! ## Bus cycles -/

theorem moves_mr (h : Atoms R) (a : Word) : Moves R (mr a) := by
  unfold mr
  refine moves_bind h (moves_active h a) fun m => moves_bind h (moves_get h) fun s => moves_bind h (moves_cellAt h _) fun c =>
    moves_bind h (moves_waitFor h a m c) fun _ => moves_bind h (moves_get h) fun s' => ?_
  have hrest : ∀ v, Moves R (do
      let now ← cellAt (m.read.at s.cfg a)
      if now.flags.breakRead && s'.mode.brk then latchExit (.readBreakpoint a)
      if now.flags.logAccess && s'.mode.log then logAccess .read a
      tick 3
      return v : M Byte) := by
    intro v
    refine moves_bind h (moves_cellAt h _) fun c' => ?_
    have hend : Moves R (tick 3 >>= fun _ => pure v) := moves_bind h (moves_tick h (by decide)) fun _ => moves_pure h v
    refine moves_ite (moves_bind h (moves_latchExit h _) fun _ => ?_) ?_
    · exact moves_ite (moves_bind h (moves_logAccess h _ _) fun _ => hend) hend
    · exact moves_ite (moves_bind h (moves_logAccess h _ _) fun _ => hend) hend
  exact moves_ite (moves_bind h (moves_mmioRead h _ _) hrest) (moves_bind h (moves_pure h _) hrest)

/-- An action that begins by looking at a Cell. -/
theorem moves_cellAt_bind {r : Ref} {f : CellView → M β}
    (hf : ∀ c s b t, s.mem.cell? r = some c → f c s = .ok b t → R s t) : Moves R (cellAt r >>= f) := by
  intro s b t he
  unfold cellAt at he
  rw [run_bind, run_bind_ok (run_get s)] at he
  cases hx : s.mem.cell? r with
  | none => simp only [hx] at he; cases he
  | some c => simp only [hx] at he; exact hf c s b t hx he

theorem moves_writeCell (h : Atoms R) (r : Ref) (a : Word) (v : Byte) : Moves R (writeCell r a v) := by
  unfold writeCell
  refine moves_cellAt_bind fun c s b t hc he => ?_
  rw [run_bind_ok (run_get s)] at he
  have hrest : Moves R (do
      if c.flags.mmioWrite && s.mode.mmio then mmioWrite a v
      let now ← cellAt r
      if now.flags.breakWrite && s.mode.brk then latchExit (.writeBreakpoint a)
      if now.flags.logAccess && s.mode.log then logAccess .write a : M Unit) := by
    have hlook : Moves R (do
        let now ← cellAt r
        if now.flags.breakWrite && s.mode.brk then latchExit (.writeBreakpoint a)
        if now.flags.logAccess && s.mode.log then logAccess .write a : M Unit) := by
      refine moves_bind h (moves_cellAt h r) fun now => ?_
      have hl : Moves R (if now.flags.logAccess && s.mode.log then logAccess .write a else pure ()) :=
        moves_ite (moves_logAccess h _ _) (moves_pure h _)
      exact moves_ite (moves_bind h (moves_latchExit h _) fun _ => hl) hl
    exact moves_ite (moves_bind h (moves_mmioWrite h _ _) fun _ => hlook) hlook
  split at he
  · rw [run_bind_ok (run_get s), run_bind_ok (run_callOut _ _)] at he
    beta_reduce at he
    rw [run_bind_ok (run_modify _ _)] at he
    have h1 := hrest _ _ _ he
    have hd := h.data { s with callouts := s.callouts ++ [.videoUpdate s.cc] } r c v hc
    exact h.trans _ _ _ (h.call s _) (h.trans _ _ _ hd h1)
  · beta_reduce at he
    rw [run_bind_ok (run_modify _ _)] at he
    have h1 := hrest _ _ _ he
    have hd := h.data s r c v hc
    exact h.trans _ _ _ hd h1

theorem moves_mw (h : Atoms R) (a : Word) (v : Byte) : Moves R (mw a v) := by
  unfold mw
  refine moves_bind h (moves_active h a) fun m => moves_bind h (moves_get h) fun s => moves_bind h (moves_cellAt h _) fun c =>
    moves_bind h (moves_waitFor h a m c) fun _ => moves_bind h (moves_writeCell h _ _ _) fun _ => ?_
  split
  · exact moves_bind h (moves_writeCell h _ _ _) fun _ => moves_tick h (by decide)
  · exact moves_tick h (by decide)

theorem moves_refresh (h : Atoms R) : Moves R refresh := moves_modRegs h _

theorem moves_m1 (h : Atoms R) (a : Word) : Moves R (m1 a) := by
  unfold m1
  refine moves_bind h (moves_active h a) fun m => moves_bind h (moves_get h) fun s => moves_bind h (moves_cellAt h _) fun c =>
    moves_bind h (moves_waitFor h a m c) fun _ => moves_bind h (moves_get h) fun s' => ?_
  have hend : ∀ op, Moves R (do
      let now ← cellAt (m.read.at s.cfg a)
      if now.flags.logAccess && s'.mode.log then logAccess .fetch a
      refresh
      tick 4
      return op : M Byte) := by
    intro op
    have : Moves R (refresh >>= fun _ => tick 4 >>= fun _ => pure op) :=
      moves_bind h (moves_refresh h) fun _ => moves_bind h (moves_tick h (by decide)) fun _ => moves_pure h op
    exact moves_bind h (moves_cellAt h _) fun c => moves_ite (moves_bind h (moves_logAccess h _ _) fun _ => this) this
  have hpatch : ∀ op, Moves R (do
      let now ← cellAt (m.read.at s.cfg a)
      let op ← if now.flags.patchOnExec && s'.mode.patch then patchFetch a op else pure op
      let now ← cellAt (m.read.at s.cfg a)
      if now.flags.logAccess && s'.mode.log then logAccess .fetch a
      refresh
      tick 4
      return op : M Byte) := fun op => moves_bind h (moves_cellAt h _) fun c =>
    moves_ite (moves_bind h (moves_patchFetch h _ _) hend) (moves_bind h (moves_pure h _) hend)
  exact moves_ite (moves_bind h (moves_mmioRead h _ _) hpatch) (moves_bind h (moves_pure h _) hpatch)

theorem moves_internal1 (h : Atoms R) (a : Word) : Moves R (internal1 a) := by
  unfold internal1
  have hend : Moves R (tick 1) := moves_tick h (by decide)
  exact moves_ite (moves_bind h (moves_active h a) fun m => moves_bind h (moves_get h) fun s =>
    moves_bind h (moves_cellAt h _) fun c => moves_bind h (moves_waitFor h a m c) fun _ => hend) hend

theorem moves_internal (h : Atoms R) (a : Word) (k : Nat) : Moves R (internal a k) := by
  induction k with
  | zero => exact moves_pure h _
  | succ k ih => exact moves_bind h (moves_internal1 h a) fun _ => ih

theorem moves_ior (h : Atoms R) (p : Word) : Moves R (ior p) :=
  moves_bind h (moves_ioWait h p) fun _ => moves_bind h (moves_busIn h p) fun v => moves_bind h (moves_replayIn h v) fun v =>
    moves_bind h (moves_tick h (by decide)) fun _ => moves_pure h v

theorem moves_iow (h : Atoms R) (p : Word) (v : Byte) : Moves R (iow p v) :=
  moves_bind h (moves_ioWait h p) fun _ => moves_bind h (moves_get h) fun s => moves_bind h (moves_callOut h _) fun _ =>
    moves_bind h (moves_busOut h p v) fun _ => moves_tick h (by decide)

theorem moves_imm8 (h : Atoms R) : Moves R imm8 :=
  moves_bind h (moves_theRegs h) fun g => moves_bind h (moves_mr h _) fun v => moves_bind h (moves_modRegs h _) fun _ =>
    moves_pure h v

theorem moves_imm16 (h : Atoms R) : Moves R imm16 :=
  moves_bind h (moves_imm8 h) fun _ => moves_bind h (moves_imm8 h) fun _ => moves_pure h _

theorem moves_fetchOp (h : Atoms R) : Moves R fetchOp :=
  moves_bind h (moves_theRegs h) fun g => moves_bind h (moves_m1 h _) fun v => moves_bind h (moves_modRegs h _) fun _ =>
    moves_pure h v

theorem moves_mr16 (h : Atoms R) (a : Word) : Moves R (mr16 a) :=
  moves_bind h (moves_mr h _) fun _ => moves_bind h (moves_mr h _) fun _ => moves_pure h _

theorem moves_mw16 (h : Atoms R) (a w : Word) : Moves R (mw16 a w) :=
  moves_bind h (moves_mw h _ _) fun _ => moves_mw h _ _

theorem moves_push16 (h : Atoms R) (w : Word) : Moves R (push16 w) :=
  moves_bind h (moves_modRegs h _) fun _ => moves_bind h (moves_theRegs h) fun _ => moves_bind h (moves_mw h _ _) fun _ =>
    moves_bind h (moves_modRegs h _) fun _ => moves_bind h (moves_theRegs h) fun _ => moves_mw h _ _

theorem moves_pop16 (h : Atoms R) : Moves R pop16 :=
  moves_bind h (moves_theRegs h) fun _ => moves_bind h (moves_mr h _) fun _ => moves_bind h (moves_modRegs h _) fun _ =>
    moves_bind h (moves_theRegs h) fun _ => moves_bind h (moves_mr h _) fun _ => moves_bind h (moves_modRegs h _) fun _ =>
      moves_pure h _

theorem moves_jumpTo (h : Atoms R) (w : Word) : Moves R (jumpTo w) := moves_modRegs h _

theorem moves_enterInterrupt (h : Atoms R) (nmi : Bool) {ack : Int} (ha : 0 ≤ ack) {target : M Word}
    (ht : Moves R target) : Moves R (enterInterrupt nmi ack target) :=
  moves_bind h (moves_modRegs h _) fun _ => moves_bind h (moves_modRegs h _) fun _ => moves_bind h (moves_refresh h) fun _ =>
    moves_bind h (moves_tick h ha) fun _ => moves_bind h (moves_theRegs h) fun _ => moves_bind h (moves_push16 h _) fun _ =>
      moves_bind h ht fun w => moves_jumpTo h w

theorem moves_acceptNmi (h : Atoms R) : Moves R acceptNmi :=
  moves_bind h (moves_modRegs h _) fun _ => moves_enterInterrupt h true (by decide) (moves_pure h _)

theorem moves_acceptInt (h : Atoms R) : Moves R acceptInt := by
  unfold acceptInt
  refine moves_bind h (moves_get h) fun s => ?_
  dsimp only
  split
  · exact moves_ite (moves_refuse _) (moves_enterInterrupt h false (by decide) (moves_pure h _))
  · exact moves_enterInterrupt h false (by decide) (moves_pure h _)
  · exact moves_enterInterrupt h false (by decide) (moves_bind h (moves_theRegs h) fun g => moves_mr16 h _)

/-! ## Instructions -/

theorem moves_getReg8 (h : Atoms R) (r : Reg8) : Moves R (getReg8 r) := moves_bind h (moves_theRegs h) fun g => moves_pure h _
theorem moves_getReg16 (h : Atoms R) (r : Reg16) : Moves R (getReg16 r) := moves_bind h (moves_theRegs h) fun g => moves_pure h _
theorem moves_putReg8 (h : Atoms R) (r : Reg8) (v : Byte) : Moves R (putReg8 r v) := moves_modRegs h _
theorem moves_putReg16 (h : Atoms R) (r : Reg16) (w : Word) : Moves R (putReg16 r w) := moves_modRegs h _

theorem moves_indexAddr (h : Atoms R) (i : XY) (d : Byte) (k : Nat) : Moves R (indexAddr i d k) :=
  moves_bind h (moves_theRegs h) fun _ => moves_bind h (moves_internal h _ _) fun _ => moves_bind h (moves_theRegs h) fun _ =>
    moves_bind h (moves_modRegs h _) fun _ => moves_pure h _

theorem moves_memAddr (h : Atoms R) (m : Mem8) : Moves R (memAddr m) := by
  cases m <;> [exact moves_getReg16 h _; exact moves_indexAddr h _ _ _]

theorem moves_cbAddr (h : Atoms R) (m : Mem8) : Moves R (cbAddr m) := by
  cases m <;> [exact moves_getReg16 h _; exact moves_indexAddr h _ _ _]

theorem moves_source (h : Atoms R) (x : Src8) : Moves R (source x) := by
  cases x with
  | reg r => exact moves_getReg8 h r
  | imm n => exact moves_pure h n
  | atHL => exact moves_bind h (moves_memAddr h _) fun a => moves_mr h a
  | atIdx i d => exact moves_bind h (moves_memAddr h _) fun a => moves_mr h a

theorem moves_copyInto (h : Atoms R) (copy : Option R7) (v : Byte) : Moves R (copyInto copy v) := by
  cases copy <;> [exact moves_pure h _; exact moves_putReg8 h _ _]

theorem moves_testCond (h : Atoms R) (cond : Cond) : Moves R (testCond cond) :=
  moves_bind h (moves_theRegs h) fun g => moves_pure h _

theorem moves_relative (h : Atoms R) (e : Byte) : Moves R (relative e) :=
  moves_bind h (moves_theRegs h) fun _ => moves_bind h (moves_internal h _ _) fun _ => moves_bind h (moves_theRegs h) fun _ =>
    moves_jumpTo h _

theorem moves_callTo (h : Atoms R) (nn : Word) : Moves R (callTo nn) :=
  moves_bind h (moves_theRegs h) fun _ => moves_bind h (moves_internal h _ _) fun _ => moves_bind h (moves_theRegs h) fun _ =>
    moves_bind h (moves_push16 h _) fun _ => moves_modRegs h _

theorem moves_ldBlock (h : Atoms R) (dir : Dir) (rep : Bool) : Moves R (ldBlock dir rep) := by
  unfold ldBlock
  refine moves_bind h (moves_theRegs h) fun g => moves_bind h (moves_mr h _) fun v => moves_bind h (moves_mw h _ _) fun _ =>
    moves_bind h (moves_internal h _ _) fun _ => ?_
  exact moves_ite (moves_bind h (moves_internal h _ _) fun _ => moves_bind h (moves_modRegs h _) fun _ => moves_modRegs h _)
    (moves_modRegs h _)

theorem moves_cpBlock (h : Atoms R) (dir : Dir) (rep : Bool) : Moves R (cpBlock dir rep) := by
  unfold cpBlock
  refine moves_bind h (moves_theRegs h) fun g => moves_bind h (moves_mr h _) fun v =>
    moves_bind h (moves_internal h _ _) fun _ => ?_
  exact moves_ite (moves_bind h (moves_internal h _ _) fun _ => moves_bind h (moves_modRegs h _) fun _ => moves_modRegs h _)
    (moves_bind h (moves_modRegs h _) fun _ => moves_modRegs h _)

theorem moves_inBlock (h : Atoms R) (dir : Dir) (rep : Bool) : Moves R (inBlock dir rep) := by
  unfold inBlock
  refine moves_bind h (moves_theRegs h) fun g => moves_bind h (moves_internal h _ _) fun _ =>
    moves_bind h (moves_theRegs h) fun g => moves_bind h (moves_ior h _) fun v => moves_bind h (moves_modRegs h _) fun _ =>
    moves_bind h (moves_mw h _ _) fun _ => ?_
  exact moves_ite (moves_bind h (moves_internal h _ _) fun _ => moves_bind h (moves_modRegs h _) fun _ => moves_modRegs h _)
    (moves_modRegs h _)

theorem moves_outBlock (h : Atoms R) (dir : Dir) (rep : Bool) : Moves R (outBlock dir rep) := by
  unfold outBlock
  refine moves_bind h (moves_theRegs h) fun g => moves_bind h (moves_internal h _ _) fun _ =>
    moves_bind h (moves_theRegs h) fun g => moves_bind h (moves_mr h _) fun v => moves_bind h (moves_modRegs h _) fun _ =>
    moves_bind h (moves_iow h _ _) fun _ => moves_bind h (moves_modRegs h _) fun _ => ?_
  exact moves_ite (moves_bind h (moves_internal h _ _) fun _ => moves_modRegs h _) (moves_pure h _)

theorem moves_rmw (h : Atoms R) (ea : Word) (k : Nat) {f : Byte → M α} (hf : ∀ v, Moves R (f v)) :
    Moves R (mr ea >>= fun v => internal ea k >>= fun _ => f v) :=
  moves_bind h (moves_mr h _) fun v => moves_bind h (moves_internal h _ _) fun _ => hf v

theorem moves_ld8 (h : Atoms R) : ∀ d x, Moves R (ld8 d x) :=
  fun d x => moves_bind h (moves_source h x) fun v => moves_putReg8 h d v

theorem moves_st8 (h : Atoms R) : ∀ m r, Moves R (st8 m r) :=
  fun m r =>
  moves_bind h (moves_memAddr h m) fun a => moves_bind h (moves_getReg8 h r) fun v => moves_mw h a v

theorem moves_alu (h : Atoms R) : ∀ op x, Moves R (alu op x) :=
  fun op x => moves_bind h (moves_source h x) fun v => moves_modRegs h _

theorem moves_ldAFrom (h : Atoms R) : ∀ a, Moves R (ldAFrom a) :=
  fun a => moves_bind h (moves_mr h a) fun v => moves_modRegs h _

theorem moves_stATo (h : Atoms R) : ∀ a, Moves R (stATo a) :=
  fun a =>
  moves_bind h (moves_getReg8 h _) fun v => moves_bind h (moves_mw h a v) fun _ => moves_modRegs h _

theorem moves_idle (h : Atoms R) : ∀ (k : Nat) (f : Regs → Regs), Moves R (theRegs >>= fun g => internal g.ir k >>= fun _ => modRegs f) :=
  fun k f => moves_bind h (moves_theRegs h) fun g => moves_bind h (moves_internal h _ _) fun _ => moves_modRegs h f

theorem moves_ld16 (h : Atoms R) : ∀ r nn, Moves R (ld16Nn r nn) :=
  fun r nn =>
  moves_bind h (moves_mr16 h nn) fun w => moves_bind h (moves_putReg16 h r w) fun _ => moves_modRegs h _

theorem moves_st16 (h : Atoms R) : ∀ nn r, Moves R (st16Nn nn r) :=
  fun nn r =>
  moves_bind h (moves_getReg16 h r) fun w => moves_bind h (moves_mw16 h nn w) fun _ => moves_modRegs h _

theorem moves_push (h : Atoms R) : ∀ r, Moves R (push r) :=
  fun r =>
  moves_bind h (moves_theRegs h) fun g => moves_bind h (moves_internal h _ _) fun _ =>
    moves_bind h (moves_getReg16 h r) fun w => moves_push16 h w

theorem moves_pop (h : Atoms R) : ∀ r, Moves R (pop r) :=
  fun r => moves_bind h (moves_pop16 h) fun w => moves_putReg16 h r w

theorem moves_ldSp (h : Atoms R) : ∀ r, Moves R (ldSp r) :=
  fun r =>
  moves_bind h (moves_theRegs h) fun g => moves_bind h (moves_internal h _ _) fun _ =>
    moves_bind h (moves_getReg16 h r) fun w => moves_putReg16 h .sp w

theorem moves_exSp (h : Atoms R) : ∀ r, Moves R (exSp r) :=
  fun r =>
  moves_bind h (moves_getReg16 h _) fun sp => moves_bind h (moves_mr h _) fun l => moves_bind h (moves_mr h _) fun u =>
    moves_bind h (moves_internal h _ _) fun _ => moves_bind h (moves_getReg16 h r) fun _ =>
    moves_bind h (moves_mw h _ _) fun _ => moves_bind h (moves_getReg16 h r) fun _ => moves_bind h (moves_mw h _ _) fun _ =>
    moves_bind h (moves_internal h _ _) fun _ => moves_bind h (moves_putReg16 h r _) fun _ => moves_modRegs h _

theorem moves_incMem (h : Atoms R) : ∀ m, Moves R (incMem m) :=
  fun m => moves_bind h (moves_memAddr h m) fun ea =>
  moves_rmw h ea 1 fun v => moves_bind h (moves_mw h _ _) fun _ => moves_modRegs h _

theorem moves_decMem (h : Atoms R) : ∀ m, Moves R (decMem m) :=
  fun m => moves_bind h (moves_memAddr h m) fun ea =>
  moves_rmw h ea 1 fun v => moves_bind h (moves_mw h _ _) fun _ => moves_modRegs h _

theorem moves_rotMem (h : Atoms R) : ∀ op m copy, Moves R (rotMem op m copy) :=
  fun op m copy => moves_bind h (moves_cbAddr h m) fun ea =>
  moves_rmw h ea 1 fun v => moves_bind h (moves_theRegs h) fun g => moves_bind h (moves_mw h _ _) fun _ =>
    moves_bind h (moves_copyInto h copy _) fun _ => moves_modRegs h _

theorem moves_resMem (h : Atoms R) : ∀ b m copy, Moves R (resMem b m copy) :=
  fun b m copy => moves_bind h (moves_cbAddr h m) fun ea =>
  moves_rmw h ea 1 fun v => moves_bind h (moves_mw h _ _) fun _ => moves_copyInto h copy _

theorem moves_setMem (h : Atoms R) : ∀ b m copy, Moves R (setMem b m copy) :=
  fun b m copy => moves_bind h (moves_cbAddr h m) fun ea =>
  moves_rmw h ea 1 fun v => moves_bind h (moves_mw h _ _) fun _ => moves_copyInto h copy _

theorem moves_nibble (h : Atoms R) : ∀ (f : Word → Byte → Byte → Byte) (k : Word → Byte → Regs → Regs), Moves R (do
      let hl ← getReg16 .hl
      let v ← mr hl
      internal hl 4
      let a ← getReg8 .a
      mw hl (f hl v a)
      modRegs (k hl v)) :=
  fun f k => moves_bind h (moves_getReg16 h _) fun hl =>
  moves_rmw h hl 4 fun v => moves_bind h (moves_getReg8 h _) fun a => moves_bind h (moves_mw h _ _) fun _ => moves_modRegs h _

theorem moves_retInt (h : Atoms R) : Moves R returnInterrupt :=
  moves_bind h (moves_pop16 h) fun w =>
  moves_bind h (moves_jumpTo h w) fun _ => moves_modRegs h _

theorem moves_outC (h : Atoms R) : ∀ v, Moves R (outC v) :=
  fun v =>
  moves_bind h (moves_getReg16 h _) fun bc => moves_bind h (moves_iow h bc v) fun _ => moves_modRegs h _

/-- An action that only changes registers. -/
theorem moves_regs (h : Atoms R) {m : M Unit} {f : State → Regs} (hm : ∀ s, m s = .ok () { s with regs := f s }) : Moves R m := by
  intro s a t he
  rw [hm s] at he
  cases he
  exact h.regs s _

/-- Every instruction moves so. -/
theorem moves_runForm (h : Atoms R) (f : Form) : Moves R (runForm f) := by
  cases f
  case ldHLN n => exact moves_bind h (moves_getReg16 h _) fun a => moves_mw h a n
  case ldIdxN i d n => exact moves_bind h (moves_indexAddr h i d 2) fun a => moves_mw h a n
  case ldAAt p => exact moves_bind h (moves_getReg16 h _) fun a => moves_ldAFrom h a
  case ldAtA p => exact moves_bind h (moves_getReg16 h _) fun a => moves_stATo h a
  case ldBlock dir rep => exact moves_ldBlock h dir rep
  case cpBlock dir rep => exact moves_cpBlock h dir rep
  case nop => exact moves_pure h _
  case edNop op => exact moves_pure h _
  case rld => exact moves_nibble h _ _
  case rrd => exact moves_nibble h _ _
  case bitHL b => exact moves_bind h (moves_getReg16 h _) fun hl => moves_rmw h hl 1 fun v => moves_modRegs h _
  case bitIdx b i d z => exact moves_bind h (moves_cbAddr h _) fun ea => moves_rmw h ea 1 fun v => moves_modRegs h _
  case jpNn nn => exact moves_jumpTo h nn
  case jpCc c nn =>
    exact moves_bind h (moves_modRegs h _) fun _ => moves_bind h (moves_testCond h _) fun b => by
      split <;> [exact moves_modRegs h _; exact moves_pure h _]
  case jr e => exact moves_relative h e
  case jrCc c e =>
    exact moves_bind h (moves_testCond h _) fun b => by
      cases b <;> [exact moves_pure h _; exact moves_relative h e]
  case djnz e =>
    exact moves_bind h (moves_modRegs h _) fun _ => moves_bind h (moves_theRegs h) fun g => by
      split <;> [exact moves_relative h e; exact moves_pure h _]
  case callNn nn => exact moves_bind h (moves_modRegs h _) fun _ => moves_callTo h nn
  case callCc c nn =>
    exact moves_bind h (moves_modRegs h _) fun _ => moves_bind h (moves_testCond h _) fun b => by
      cases b <;> [exact moves_pure h _; exact moves_callTo h nn]
  case ret => exact moves_bind h (moves_pop16 h) fun w => moves_jumpTo h w
  case retCc c =>
    exact moves_bind h (moves_theRegs h) fun g => moves_bind h (moves_internal h _ _) fun _ =>
    moves_bind h (moves_testCond h _) fun b => by
      cases b <;> [exact moves_pure h _; exact moves_bind h (moves_pop16 h) fun w => moves_jumpTo h w]
  case rst y =>
    refine moves_bind h (moves_theRegs h) fun g => moves_bind h (moves_internal h _ _) fun _ => ?_
    exact moves_bind h (moves_theRegs h) fun g => moves_bind h (moves_push16 h g.pc) fun _ => moves_jumpTo h _
  case inAN n => exact moves_bind h (moves_getReg8 h _) fun a => moves_bind h (moves_ior h _) fun v => moves_modRegs h _
  case inRC r => exact moves_bind h (moves_getReg16 h _) fun a => moves_bind h (moves_ior h _) fun v => moves_modRegs h _
  case inFC => exact moves_bind h (moves_getReg16 h _) fun a => moves_bind h (moves_ior h _) fun v => moves_modRegs h _
  case outNA n => exact moves_bind h (moves_getReg8 h _) fun a => moves_bind h (moves_iow h _ _) fun v => moves_modRegs h _
  case outCR r => exact moves_bind h (moves_getReg8 h _) fun v => moves_outC h v
  case outC0 => exact moves_outC h _
  case inBlock dir rep => exact moves_inBlock h dir rep
  case outBlock dir rep => exact moves_outBlock h dir rep
  case ignored i op => exact moves_modify fun s => h.latch s _
  case ldRR => exact moves_ld8 h _ _
  case ldRN => exact moves_ld8 h _ _
  case ldRHL => exact moves_ld8 h _ _
  case ldRIdx => exact moves_ld8 h _ _
  case ldXX => exact moves_ld8 h _ _
  case ldXN => exact moves_ld8 h _ _
  case ldHLR => exact moves_st8 h _ _
  case ldIdxR => exact moves_st8 h _ _
  case ldANn => exact moves_ldAFrom h _
  case ldNnA => exact moves_stATo h _
  case ldAI => exact moves_idle h _ _
  case ldAR => exact moves_idle h _ _
  case ldIA => exact moves_idle h _ _
  case ldRA => exact moves_idle h _ _
  case addHL => exact moves_idle h _ _
  case addXy => exact moves_idle h _ _
  case adcHL => exact moves_idle h _ _
  case sbcHL => exact moves_idle h _ _
  case incRp => exact moves_idle h _ _
  case incXy => exact moves_idle h _ _
  case decRp => exact moves_idle h _ _
  case decXy => exact moves_idle h _ _
  case ldRpNn => exact moves_regs h fun _ => rfl
  case ldXyNn => exact moves_regs h fun _ => rfl
  case exAF => exact moves_regs h fun _ => rfl
  case exDEHL => exact moves_regs h fun _ => rfl
  case exx => exact moves_regs h fun _ => rfl
  case incR => exact moves_regs h fun _ => rfl
  case incX => exact moves_regs h fun _ => rfl
  case decR => exact moves_regs h fun _ => rfl
  case decX => exact moves_regs h fun _ => rfl
  case daa => exact moves_regs h fun _ => rfl
  case cpl => exact moves_regs h fun _ => rfl
  case neg => exact moves_regs h fun _ => rfl
  case ccf => exact moves_regs h fun _ => rfl
  case scf => exact moves_regs h fun _ => rfl
  case halt => exact moves_regs h fun _ => rfl
  case di => exact moves_regs h fun _ => rfl
  case ei => exact moves_regs h fun _ => rfl
  case im => exact moves_regs h fun _ => rfl
  case rlca => exact moves_regs h fun _ => rfl
  case rrca => exact moves_regs h fun _ => rfl
  case rla => exact moves_regs h fun _ => rfl
  case rra => exact moves_regs h fun _ => rfl
  case rotR => exact moves_regs h fun _ => rfl
  case bitR => exact moves_regs h fun _ => rfl
  case resR => exact moves_regs h fun _ => rfl
  case setR => exact moves_regs h fun _ => rfl
  case jpHL => exact moves_regs h fun _ => rfl
  case jpXy => exact moves_regs h fun _ => rfl
  case ldHLAtNn => exact moves_ld16 h _ _
  case ldXyAtNn => exact moves_ld16 h _ _
  case ldRpAtNn => exact moves_ld16 h _ _
  case ldNnHL => exact moves_st16 h _ _
  case ldNnXy => exact moves_st16 h _ _
  case ldNnRp => exact moves_st16 h _ _
  case push => exact moves_push h _
  case pushXy => exact moves_push h _
  case pop => exact moves_pop h _
  case popXy => exact moves_pop h _
  case ldSpHL => exact moves_ldSp h _
  case ldSpXy => exact moves_ldSp h _
  case exSpHL => exact moves_exSp h _
  case exSpXy => exact moves_exSp h _
  case aluR => exact moves_alu h _ _
  case aluN => exact moves_alu h _ _
  case aluHL => exact moves_alu h _ _
  case aluIdx => exact moves_alu h _ _
  case aluX => exact moves_alu h _ _
  case incHL => exact moves_incMem h _
  case incIdx => exact moves_incMem h _
  case decHL => exact moves_decMem h _
  case decIdx => exact moves_decMem h _
  case rotHL => exact moves_rotMem h _ _ _
  case rotIdx => exact moves_rotMem h _ _ _
  case resHL => exact moves_resMem h _ _ _
  case resIdx => exact moves_resMem h _ _ _
  case setHL => exact moves_setMem h _ _ _
  case setIdx => exact moves_setMem h _ _ _
  case reti => exact moves_retInt h
  case retn => exact moves_retInt h

end Sys2Proof.Machine
end

