-- ==== Sys2Proof/Laws/Invariant.lean ====
section
/-! SUPPORT. The soundness of storage, paging and the chain's head, `State.Inv`, across the small changes of the state. -/

namespace Sys2Proof.Machine

/-- Soundness is kept. -/
def KeepsInv (s t : State) : Prop := s.Inv → t.Inv

/-! ## References and blocks -/

theorem fits_update {m : Memory} {id : Nat} {f : Block → Block} (hid : ∀ b, (f b).id = b.id) (hlen : ∀ b, (f b).len = b.len)
    (r : Ref) (n : Nat) : r.fits (m.update id f) n = r.fits m n := by
  simp only [Ref.fits, Memory.block?_update m id f hid]
  cases m.block? r.block with
  | none => rfl
  | some b =>
    simp only [Option.map_some]
    split
    · rw [hlen]
    · rfl

theorem mappingOk_congr {m m' : Memory} (h : ∀ (r : Ref) n, r.fits m' n = r.fits m n) (x : Mapping) (c : Cfg) :
    x.ok c m' = x.ok c m := by
  simp only [Mapping.ok, h]

theorem pagesOk_congr {m m' : Memory} (h : ∀ (r : Ref) n, r.fits m' n = r.fits m n) (p : PageTable) (c : Cfg) :
    p.ok c m' = p.ok c m := by
  simp only [PageTable.ok, mappingOk_congr h]

theorem sinkOk_update {m : Memory} {id : Nat} {f : Block → Block} (hid : ∀ b, (f b).id = b.id)
    (h : ∀ b, b.id = sinkId → id = sinkId → (f b).len = b.len ∧ (f b).baseFlags = b.baseFlags ∧ (f b).flags = b.flags)
    (c : Cfg) : (m.update id f).sinkOk c = m.sinkOk c := by
  simp only [Memory.sinkOk, Memory.block?_update m id f hid]
  cases hb : m.block? sinkId with
  | none => rfl
  | some b =>
    have hbid := Memory.block?_id hb
    simp only [Option.map_some]
    split
    · next he =>
      obtain ⟨h1, h2, h3⟩ := h b hbid (he ▸ hbid)
      rw [h1, h2, h3]
    · rfl

theorem inv_setData {s : State} {r : Ref} {c : CellView} (v : Byte) (hc : s.mem.cell? r = some c) :
    KeepsInv s { s with mem := s.mem.setData r v } := by
  rintro ⟨h1, h2, h3, h4⟩
  refine ⟨Memory.setData_wf h1 (by rw [hc]; rfl), ?_, ?_, h4⟩
  · exact (sinkOk_update (m := s.mem) (id := r.block) (f := (·.setData r.base v)) (fun _ => rfl) (fun _ _ _ => ⟨rfl, rfl, rfl⟩) s.cfg).trans h2
  · exact (pagesOk_congr (m := s.mem) (m' := s.mem.setData r v)
      (fun q n => fits_update (f := (·.setData r.base v)) (fun _ => rfl) (fun _ => rfl) q n) s.pages s.cfg).trans h3

theorem inv_setFlags {s : State} {r : Ref} {c : CellView} (f : CellFlags) (hc : s.mem.cell? r = some c)
    (hs : r.block ≠ sinkId) : KeepsInv s { s with mem := s.mem.setFlags r f } := by
  rintro ⟨h1, h2, h3, h4⟩
  refine ⟨Memory.setFlags_wf h1 (by rw [hc]; rfl), ?_, ?_, h4⟩
  · exact (sinkOk_update (m := s.mem) (id := r.block) (f := (·.setFlags r.base f)) (fun _ => rfl) (fun _ _ he => absurd he hs) s.cfg).trans h2
  · exact (pagesOk_congr (m := s.mem) (m' := s.mem.setFlags r f)
      (fun q n => fits_update (f := (·.setFlags r.base f)) (fun _ => rfl) (fun _ => rfl) q n) s.pages s.cfg).trans h3

/-! ## Mapping and unmapping -/

theorem fits_page {m : Memory} {r : Ref} {len n j : Nat} (h : r.fits m len = true) (hj : j + n ≤ len) :
    ({ r with base := r.base + j } : Ref).fits m n = true := by
  simp only [Ref.fits] at h ⊢
  cases hb : m.block? r.block with
  | none => rw [hb] at h; cases h
  | some b =>
    rw [hb] at h
    simp only [decide_eq_true_eq] at h ⊢
    omega

theorem page_ok {q : MapReq} {c : Cfg} {m : Memory} (hq : q.ok c m = true) (hs : q.read.block ≠ sinkId) (handle j : Nat)
    (hj : j < q.len / c.pageSize) : (q.page c handle j).ok c m = true := by
  simp only [MapReq.ok, Bool.and_eq_true, decide_eq_true_eq] at hq
  obtain ⟨⟨⟨-, hr⟩, hw⟩, hsh⟩ := hq
  have hbound : j * c.pageSize + c.pageSize ≤ q.len := by
    have h1 : (j + 1) * c.pageSize ≤ q.len / c.pageSize * c.pageSize := Nat.mul_le_mul_right _ hj
    have h2 := Nat.div_mul_le_self q.len c.pageSize
    rw [Nat.succ_mul] at h1
    omega
  simp only [Mapping.ok, MapReq.page, Bool.and_eq_true, bne_iff_ne]
  refine ⟨⟨⟨fits_page hr hbound, fits_page hw hbound⟩, ?_⟩, hs⟩
  cases hsd : q.shadow with
  | none => rfl
  | some r =>
    rw [hsd] at hsh
    exact fits_page hsh hbound

theorem inv_map {s : State} {q : MapReq} (hq : q.ok s.cfg s.mem = true) (hs : q.read.block ≠ sinkId) :
    KeepsInv s { s with pages := s.pages.push s.cfg q s.nextHandle, nextHandle := s.nextHandle + 1 } := by
  rintro ⟨h1, h2, h3, h4⟩
  refine ⟨h1, h2, ?_, h4⟩
  simp only [PageTable.ok, Bool.and_eq_true, decide_eq_true_eq, List.all_eq_true] at h3 ⊢
  refine ⟨by simpa [PageTable.push] using h3.1, fun st hst => ?_⟩
  simp only [PageTable.push, List.mem_mapIdx] at hst
  obtain ⟨e, he, rfl⟩ := hst
  have hold := h3.2 (s.pages[e]) (List.getElem_mem he)
  split
  · next hin =>
    refine ⟨rfl, fun x hx => ?_⟩
    rcases List.mem_cons.mp hx with rfl | hx
    · exact page_ok hq hs _ _ (by omega)
    · exact hold.2 x hx
  · exact hold

theorem inv_unmap {s : State} {h : Nat}
    (hne : (s.pages.any fun st => !st.isEmpty && (st.filter (·.handle != h)).isEmpty) = false) :
    KeepsInv s { s with pages := s.pages.remove h } := by
  rintro ⟨h1, h2, h3, h4⟩
  refine ⟨h1, h2, ?_, h4⟩
  simp only [PageTable.ok, Bool.and_eq_true, decide_eq_true_eq, List.all_eq_true] at h3 ⊢
  refine ⟨by simpa [PageTable.remove] using h3.1, fun st hst => ?_⟩
  simp only [PageTable.remove, List.mem_map] at hst
  obtain ⟨st, hmem, rfl⟩ := hst
  have hold := h3.2 st hmem
  have hn := List.any_eq_false.mp hne st hmem
  refine ⟨?_, fun x hx => hold.2 x (List.mem_of_mem_filter hx)⟩
  simp only [hold.1, Bool.true_and] at hn
  simpa using hn

/-- Every small change keeps storage and paging sound. -/
theorem inv_atoms : Atoms KeepsInv where
  refl _ h := h
  trans _ _ _ h1 h2 h := h2 (h1 h)
  regs _ _ h := h
  time _ _ _ h := h
  exits _ _ h := h
  log _ _ h := h
  call _ _ h := h
  data _ _ _ v hc := inv_setData v hc
  flags _ _ _ f hc hs := inv_setFlags f hc hs
  links _ _ hl h := ⟨h.1, h.2.1, h.2.2.1, hl h.2.2.2⟩
  map _ _ hq hs := inv_map hq hs
  unmap _ _ hn := inv_unmap hn
  replay _ _ _ _ h := h
  latch _ _ h := h

/-! ## While power-on maps the first pages -/

/-- Soundness but for pages that have no mapping yet (70_reset_and_hazards.md rule R750). -/
def State.InvButEmpty (s : State) : Prop :=
  s.mem.wf = true ∧ s.mem.sinkOk s.cfg = true ∧ s.pages.length = s.cfg.nPages ∧
    (∀ st ∈ s.pages, ∀ x ∈ st, x.ok s.cfg s.mem = true) ∧ headWants s.chain = true

theorem State.InvButEmpty.inv {s : State} (h : s.InvButEmpty) (hne : s.pages.any (·.isEmpty) = false) : s.Inv := by
  obtain ⟨h1, h2, h3, h4, h5⟩ := h
  refine ⟨h1, h2, ?_, h5⟩
  simp only [PageTable.ok, Bool.and_eq_true, decide_eq_true_eq, List.all_eq_true]
  exact ⟨h3, fun st hst => ⟨by simpa using List.any_eq_false.mp hne st hst, h4 st hst⟩⟩

theorem butEmpty_update {s : State} {id : Nat} {f : Block → Block} (hid : ∀ b, (f b).id = b.id)
    (hlen : ∀ b, (f b).len = b.len) (hw : (s.mem.update id f).wf = true)
    (hs : (s.mem.update id f).sinkOk s.cfg = s.mem.sinkOk s.cfg) (h : s.InvButEmpty) :
    State.InvButEmpty { s with mem := s.mem.update id f } := by
  obtain ⟨-, h2, h3, h4, h5⟩ := h
  refine ⟨hw, hs.trans h2, h3, fun st hst x hx => ?_, h5⟩
  rw [mappingOk_congr (fun r n => fits_update hid hlen r n)]
  exact h4 st hst x hx

/-- Every small change keeps it. -/
theorem butEmpty_atoms : Atoms fun s t => s.InvButEmpty → t.InvButEmpty where
  refl _ h := h
  trans _ _ _ h1 h2 h := h2 (h1 h)
  regs _ _ h := h
  time _ _ _ h := h
  exits _ _ h := h
  log _ _ h := h
  call _ _ h := h
  data s r _ v hc h := butEmpty_update (f := (·.setData r.base v)) (fun _ => rfl) (fun _ => rfl)
    (Memory.setData_wf h.1 (by rw [hc]; rfl)) (sinkOk_update (f := (·.setData r.base v)) (fun _ => rfl) (fun _ _ _ => ⟨rfl, rfl, rfl⟩) s.cfg) h
  flags s r _ f hc hs h := butEmpty_update (f := (·.setFlags r.base f)) (fun _ => rfl) (fun _ => rfl)
    (Memory.setFlags_wf h.1 (by rw [hc]; rfl)) (sinkOk_update (f := (·.setFlags r.base f)) (fun _ => rfl) (fun _ _ he => absurd he hs) s.cfg) h
  links _ _ hl h := ⟨h.1, h.2.1, h.2.2.1, h.2.2.2.1, hl h.2.2.2.2⟩
  map s q hq hs h := by
    obtain ⟨h1, h2, h3, h4, h5⟩ := h
    refine ⟨h1, h2, by simpa [PageTable.push] using h3, fun st hst => ?_, h5⟩
    simp only [PageTable.push, List.mem_mapIdx] at hst
    obtain ⟨e, he, rfl⟩ := hst
    have hold := h4 (s.pages[e]) (List.getElem_mem he)
    split
    · next hin =>
      intro x hx
      rcases List.mem_cons.mp hx with rfl | hx
      · exact page_ok hq hs _ _ (by omega)
      · exact hold x hx
    · exact hold
  unmap s hd _ h := by
    obtain ⟨h1, h2, h3, h4, h5⟩ := h
    refine ⟨h1, h2, by simpa [PageTable.remove] using h3, fun st hst x hx => ?_, h5⟩
    simp only [PageTable.remove, List.mem_map] at hst
    obtain ⟨st, hmem, rfl⟩ := hst
    exact h4 st hmem x (List.mem_of_mem_filter hx)
  replay _ _ _ _ h := h
  latch _ _ h := h

/-! ## Storage management, loading and power-on -/

theorem sinkOk_of_block? {m m' : Memory} (h : m'.block? sinkId = m.block? sinkId) (c : Cfg) : m'.sinkOk c = m.sinkOk c := by
  simp only [Memory.sinkOk, h]

theorem refersTo_false {p : PageTable} {id : Nat} (h : p.refersTo id = false) {st : List Mapping} (hst : st ∈ p)
    {x : Mapping} (hx : x ∈ st) : x.read.block ≠ id ∧ x.write.block ≠ id ∧ ∀ r, x.shadow = some r → r.block ≠ id := by
  have h1 := List.any_eq_false.mp h st hst
  have h2 := List.any_eq_false.mp (by simpa using h1) x hx
  simp only [Mapping.refersTo, Bool.or_eq_true, beq_iff_eq, not_or] at h2
  refine ⟨h2.1.1, h2.1.2, fun r hr => ?_⟩
  simpa [hr] using h2.2

/-- A change to blocks no mapping refers to leaves the PageTable sound. -/
theorem pagesOk_of_unreferred {p : PageTable} {m m' : Memory} {id : Nat} {c : Cfg} (hp : p.ok c m = true)
    (hr : p.refersTo id = false) (h : ∀ q, q ≠ id → m'.block? q = m.block? q) : p.ok c m' = true := by
  simp only [PageTable.ok, Bool.and_eq_true, decide_eq_true_eq, List.all_eq_true] at hp ⊢
  refine ⟨hp.1, fun st hst => ⟨(hp.2 st hst).1, fun x hx => ?_⟩⟩
  have hold := (hp.2 st hst).2 x hx
  obtain ⟨h1, h2, h3⟩ := refersTo_false hr hst hx
  have fit (r : Ref) (n : Nat) (hne : r.block ≠ id) : r.fits m' n = r.fits m n := by simp only [Ref.fits, h _ hne]
  simp only [Mapping.ok, Bool.and_eq_true] at hold ⊢
  refine ⟨⟨⟨(fit _ _ h1).trans hold.1.1.1, (fit _ _ h2).trans hold.1.1.2⟩, ?_⟩, hold.2⟩
  cases hs : x.shadow with
  | none => rfl
  | some r =>
    have := hold.1.2
    rw [hs] at this
    exact (fit r _ (h3 r hs)).trans this

theorem block?_filter {m : Memory} {id q : Nat} (h : q ≠ id) : Memory.block? (m.filter (·.id != id)) q = m.block? q := by
  induction m with
  | nil => rfl
  | cons b t ih =>
    simp only [List.filter_cons]
    by_cases hb : b.id = id
    · have : b.id ≠ q := fun he => h (he ▸ hb)
      simp [hb, Memory.block?, ih, show ¬id = q from fun he => h he.symm]
    · simp [hb, Memory.block?, ih]

theorem block?_insert {m : Memory} {b : Block} {q : Nat} (h : q ≠ b.id) : (m.insert b).block? q = m.block? q := by
  induction m with
  | nil => simp [Memory.insert, Memory.block?, Ne.symm h]
  | cons c t ih =>
    simp only [Memory.insert]
    split
    · simp [Memory.block?, ih]
    · simp [Memory.block?, Ne.symm h]

theorem inv_free {s : State} {id : Nat} (hm : s.mayChange id = true) :
    KeepsInv s { s with mem := s.mem.filter (·.id != id) } := by
  rintro ⟨h1, h2, h3, h4⟩
  simp only [State.mayChange, Bool.and_eq_true, bne_iff_ne, Bool.not_eq_true'] at hm
  refine ⟨Memory.free_wf h1, ?_, pagesOk_of_unreferred h3 hm.2 fun q hq => block?_filter hq, h4⟩
  exact (sinkOk_of_block? (block?_filter (Ne.symm hm.1)) s.cfg).trans h2

theorem inv_resize {s : State} {id n : Nat} (hm : s.mayChange id = true) (hn : 1 ≤ n) :
    KeepsInv s { s with mem := s.mem.update id (·.resize n) } := by
  rintro ⟨h1, h2, h3, h4⟩
  simp only [State.mayChange, Bool.and_eq_true, bne_iff_ne, Bool.not_eq_true'] at hm
  have hblk : ∀ q, q ≠ id → Memory.block? (s.mem.update id (·.resize n)) q = s.mem.block? q := by
    intro q hq
    rw [Memory.block?_update s.mem id (·.resize n) fun _ => rfl]
    cases hb : s.mem.block? q with
    | none => rfl
    | some b => simp [Memory.block?_id hb, hq]
  refine ⟨Memory.resize_wf h1 hn, ?_, pagesOk_of_unreferred h3 hm.2 hblk, h4⟩
  exact (sinkOk_of_block? (hblk _ (Ne.symm hm.1)) s.cfg).trans h2

theorem freshId_gt (m : Memory) (k : Nat) : k ≤ m.foldl (fun n b => max n (b.id + 1)) k ∧
    ∀ b ∈ m, b.id < m.foldl (fun n b => max n (b.id + 1)) k := by
  induction m generalizing k with
  | nil => exact ⟨Nat.le_refl _, by simp⟩
  | cons c t ih =>
    obtain ⟨h1, h2⟩ := ih (max k (c.id + 1))
    simp only [List.foldl_cons]
    refine ⟨by omega, fun b hb => ?_⟩
    rcases List.mem_cons.mp hb with rfl | hb
    · omega
    · exact h2 b hb

theorem inv_create {s : State} {b : Block} (hid : b.id = s.mem.foldl (fun n b => max n (b.id + 1)) 1) (hwf : b.wf = true) :
    KeepsInv s { s with mem := s.mem.insert b } := by
  rintro ⟨h1, h2, h3, h4⟩
  obtain ⟨hpos, hlt⟩ := freshId_gt s.mem 1
  rw [← hid] at hpos hlt
  have hfresh : ∀ c ∈ s.mem, c.id ≠ b.id := fun c hc he => absurd (hlt c hc) (by omega)
  refine ⟨Memory.insert_wf h1 (Nat.zero_le _) hwf hfresh, ?_, ?_, h4⟩
  · exact (sinkOk_of_block? (block?_insert (by simp only [sinkId]; omega)) s.cfg).trans h2
  · have fit (r : Ref) (n : Nat) (h : r.fits s.mem n = true) : r.fits (s.mem.insert b) n = true := by
      have hne : r.block ≠ b.id := by
        intro he
        simp only [Ref.fits] at h
        cases hb : s.mem.block? r.block with
        | none => rw [hb] at h; cases h
        | some c =>
          have hc : c ∈ s.mem ∧ c.id = r.block := ⟨Memory.mem_of_block? hb, Memory.block?_id hb⟩
          exact hfresh c hc.1 (hc.2.trans he)
      simpa only [Ref.fits, block?_insert hne] using h
    simp only [PageTable.ok, Bool.and_eq_true, decide_eq_true_eq, List.all_eq_true] at h3 ⊢
    refine ⟨h3.1, fun st hst => ⟨(h3.2 st hst).1, fun x hx => ?_⟩⟩
    have hold := (h3.2 st hst).2 x hx
    simp only [Mapping.ok, Bool.and_eq_true] at hold ⊢
    refine ⟨⟨⟨fit _ _ hold.1.1.1, fit _ _ hold.1.1.2⟩, ?_⟩, hold.2⟩
    cases hs : x.shadow with
    | none => rfl
    | some r =>
      have := hold.1.2
      rw [hs] at this
      exact fit r _ this

end Sys2Proof.Machine
end

