-- ==== Sys2Proof/Laws/Ports.lean ====
section
/-! SUPPORT. What an I/O cycle does where no device's answer has an effect beyond its own state: the walk over the chain,
the IN merge, the OUT broadcast and the replay hook. -/

namespace Sys2Proof.Machine

/-! ## The walk over the chain -/

theorem modify_middle (pre : List Link) (l : Link) (t : List Link) (f : Link → Link) :
    (pre ++ l :: t).modify pre.length f = (pre ++ [f l]) ++ t := by
  induction pre with
  | nil => simp
  | cons k t' ih => simpa using ih

theorem and_ff (a : Byte) : a &&& 255#8 = a := BitVec.and_allOnes

/-- A walk that changes each link by itself. -/
theorem run_foldChain {α : Type} {f : α → Nat → Link → M α} {s : State} {upd : Link → Link} {acc : α → Link → α}
    (h : ∀ y l ch i, l ∈ s.chain → ch[i]? = some l →
      f y i l { s with chain := ch } = .ok (acc y l) { s with chain := ch.modify i upd }) (x : α) :
    foldChain f x s = .ok (s.chain.foldl acc x) { s with chain := s.chain.map upd } := by
  have walk : ∀ (post pre : List Link) (y : α), (∀ l ∈ post, l ∈ s.chain) →
      ((List.range' pre.length post.length).foldlM (init := y) fun y i => (do
        match (← (get : M State)).chain[i]? with
        | some l => f y i l
        | none => return y : M α)) { s with chain := pre ++ post } =
      .ok (post.foldl acc y) { s with chain := pre ++ post.map upd } := by
    intro post
    induction post with
    | nil => intro pre y _; rfl
    | cons l t ih =>
      intro pre y hm
      have hget : (pre ++ l :: t)[pre.length]? = some l := by simp
      have hmod := modify_middle pre l t upd
      simp only [List.length_cons, List.range'_succ, List.foldlM_cons]
      rw [run_bind_ok (a := acc y l) (t := { s with chain := (pre ++ [upd l]) ++ t })]
      · have := ih (pre ++ [upd l]) (acc y l) fun k hk => hm k (List.mem_cons_of_mem _ hk)
        simpa using this
      · rw [run_bind_ok (run_get _)]
        simp only [hget]
        rw [h y l _ _ (hm l List.mem_cons_self) hget, hmod]
  unfold foldChain
  rw [run_bind_ok (run_get s), List.range_eq_range']
  exact walk s.chain [] x fun _ h => h

/-- A handler whose answer has no effect changes the device's state only. -/
theorem run_runHandler {s : State} {i : Nat} {patching : Bool} {h : Handler} {call : HandlerCall}
    (hc : (h.call call).effects = []) :
    runHandler i patching h call s =
      .ok (h.call call) { s with chain := s.chain.modify i fun k => { k with dev := (h.call call).dev } } := by
  unfold runHandler
  simp only [hc, modLink]
  rfl

theorem modify_dev {ch : List Link} {i : Nat} {l : Link} (h : ch[i]? = some l) (f : Link → Nat) :
    (ch.modify i fun k => { k with dev := f l }) = ch.modify i fun k => { k with dev := f k } := by
  induction ch generalizing i with
  | nil => simp at h
  | cons k t ih =>
    cases i with
    | zero => simp at h; simp [h]
    | succ i => simp at h; simp [ih h]

theorem modify_self {ch : List Link} {i : Nat} {l : Link} {f : Link → Link} (h : ch[i]? = some l) (hf : f l = l) :
    ch.modify i f = ch := by
  induction ch generalizing i with
  | nil => simp at h
  | cons k t ih =>
    cases i with
    | zero => simp at h; simp [h, hf]
    | succ i => simp at h; simp [ih h]

/-! ## Input -/

theorem run_busIn {s : State} {p : Word} (h : ∀ l ∈ s.chain, (l.answerIn s.cc p).effects = []) :
    busIn p s = .ok (s.portByte p) { s with chain := s.chainIn p } := by
  unfold busIn
  rw [run_bind_ok (run_foldChain (s := s) (upd := fun l => { l with dev := (l.answerIn s.cc p).dev })
    (acc := fun (ad : Byte × Byte) l =>
      (ad.1 &&& ((l.answerIn s.cc p).v ||| ~~~(l.answerIn s.cc p).drv), ad.2 ||| (l.answerIn s.cc p).drv)) ?_ _)]
  · have hsplit : ∀ (c : List Link) (a d : Byte),
        c.foldl (fun (ad : Byte × Byte) l =>
          (ad.1 &&& ((l.answerIn s.cc p).v ||| ~~~(l.answerIn s.cc p).drv), ad.2 ||| (l.answerIn s.cc p).drv)) (a, d) =
        (c.foldl (fun acc l => acc &&& ((l.answerIn s.cc p).v ||| ~~~(l.answerIn s.cc p).drv)) a,
          c.foldl (fun drv l => drv ||| (l.answerIn s.cc p).drv) d) := by
      intro c
      induction c with
      | nil => intros; rfl
      | cons l t ih => intro a d; simp only [List.foldl_cons, ih]
    rw [hsplit]
    rfl
  · rintro ⟨a, d⟩ l ch i hl hi
    have he := h l hl
    cases hin : l.handlers.input with
    | none =>
      have ha : l.answerIn s.cc p = { dev := l.dev, v := 0xFF } := by simp [Link.answerIn, hin]
      simp only [ha]
      rw [modify_self hi (by simp [ha]), run_pure]
      simp [and_ff]
    | some hd =>
      by_cases hm : l.matchesIn p = true
      · have ha : l.answerIn s.cc p = hd.call (.input l.dev s.cc p) := by simp [Link.answerIn, hin, hm]
        simp only [hm, if_true]
        rw [run_bind_ok (run_get _), run_bind_ok (run_runHandler (by rw [← ha]; exact he)), run_pure]
        simp only [← ha]
        rw [modify_dev hi fun k => (k.answerIn s.cc p).dev]
      · have ha : l.answerIn s.cc p = { dev := l.dev, v := 0xFF } := by simp [Link.answerIn, hin, hm]
        simp only [hm, Bool.false_eq_true, if_false, ha]
        rw [modify_self hi (by simp [ha]), run_pure]
        simp [and_ff]

theorem run_replayIn (s : State) (v : Byte) : replayIn v s = .ok (s.replayByte v) (s.replayNext v) := by
  unfold replayIn State.replayByte State.replayNext
  rw [run_bind_ok (run_get s)]
  cases hm : s.replayMode <;> simp only <;> try rfl
  cases hb : s.stream[s.frameIx]?.bind (·.inputs[s.byteIx]?) <;> rfl

theorem run_ioWait {s : State} {p : Word} (h : 0 ≤ s.ioDelay p) (hr : s.room (s.ioDelay p)) :
    ioWait p s = .ok () (s.waited p) := by
  unfold ioWait
  rw [run_bind_ok (run_get s)]
  simp only [State.ioDelay] at h hr
  cases hw : s.mode.wait with
  | false => simp [run_pure, State.waited, State.ioDelay, hw, State.after]
  | true =>
    simp only [hw, if_true] at h hr ⊢
    rw [if_neg (by omega), run_tick_room hr]
    simp [State.waited, State.ioDelay, hw]

@[simp] theorem replayNext_cc (s : State) (v : Byte) : (s.replayNext v).cc = s.cc := by
  unfold State.replayNext; split <;> try rfl
  split <;> rfl

/-- `IOR(p)` where no device has an effect. -/
theorem run_ior {s : State} {p : Word} (h : s.calmIn p = true) (hr : s.room (s.ioDelay p + 4)) :
    ior p s = .ok (s.inputByte p) (s.input p) := by
  simp only [State.calmIn, Bool.and_eq_true, decide_eq_true_eq, List.all_eq_true, List.isEmpty_iff] at h
  unfold ior
  rw [run_bind_ok (run_ioWait h.1 (State.room_le hr (by omega))),
    run_bind_ok (run_busIn (s := s.waited p) h.2), run_bind_ok (run_replayIn _ _), run_bind_ok (run_tick_room ?_)]
  · rfl
  · have : s.cc + s.ioDelay p + 4 ≤ 2147483647 := by simp only [State.room] at hr; omega
    simpa [State.room, State.waited] using this

/-! ## Output -/

theorem run_busOut {s : State} {p : Word} {v : Byte} (h : ∀ l ∈ s.chain, (l.answerOut s.cc p v).effects = []) :
    busOut p v s = .ok () { s with chain := s.chainOut p v } := by
  unfold busOut
  rw [run_foldChain (s := s) (upd := fun l => { l with dev := (l.answerOut s.cc p v).dev }) (acc := fun _ _ => ()) ?_ _]
  · rfl
  · intro y l ch i hl hi
    have he := h l hl
    cases hin : l.handlers.output with
    | none =>
      have ha : l.answerOut s.cc p v = { dev := l.dev } := by simp [Link.answerOut, hin]
      rw [modify_self hi (by simp [ha])]
      rfl
    | some hd =>
      by_cases hm : l.matchesOut p = true
      · have ha : l.answerOut s.cc p v = hd.call (.output l.dev s.cc p v) := by simp [Link.answerOut, hin, hm]
        simp only [hm, if_true]
        rw [run_bind_ok (run_get _), run_bind_ok (run_runHandler (by rw [← ha]; exact he)), run_pure]
        simp only [← ha]
        rw [modify_dev hi fun k => (k.answerOut s.cc p v).dev]
      · have ha : l.answerOut s.cc p v = { dev := l.dev } := by simp [Link.answerOut, hin, hm]
        simp only [hm, Bool.false_eq_true, if_false]
        rw [modify_self hi (by simp [ha])]
        rfl

/-- `IOW(p, v)` where no device has an effect. -/
theorem run_iow {s : State} {p : Word} {v : Byte} (h : s.calmOut p v = true) (hr : s.room (s.ioDelay p + 4)) :
    iow p v s = .ok () (s.output p v) := by
  simp only [State.calmOut, Bool.and_eq_true, decide_eq_true_eq, List.all_eq_true, List.isEmpty_iff] at h
  unfold iow
  rw [run_bind_ok (run_ioWait h.1 (State.room_le hr (by omega))), run_bind_ok (run_get _), run_bind_ok (run_callOut _ _)]
  refine (run_bind_ok (run_busOut h.2)).trans ?_
  rw [run_tick_room ?_]
  · rfl
  · have : s.cc + s.ioDelay p + 4 ≤ 2147483647 := by simp only [State.room] at hr; omega
    simpa [State.room, State.waited] using this

end Sys2Proof.Machine
end

