-- ==== Sys2Proof/Laws/Transfer.lean ====
section
/-! SUPPORT. What the exchange, block, jump, call and I/O operations do (42_exchange_block.md, 48_jump_call.md, 49_io.md). -/

set_option linter.unusedSimpArgs false

namespace Sys2Proof.Machine

/-! ## Exchanges and block transfers -/

theorem run_exSp {s : State} (r : Reg16) (h0 : s.calmData s.regs.sp = true) (h1 : s.calmData (s.regs.sp + 1) = true)
    (hr : s.room 15) :
    exSp r s = .ok () ((((s.store (s.regs.sp + 1) (hi (s.regs.get16 r))).store s.regs.sp (lo (s.regs.get16 r))).withRegs
      fun g => { g.set16 r (s.wordAt g.sp) with wz := s.wordAt g.sp }).after 15) := by
  simp only [State.calmData, Bool.and_eq_true] at h0 h1
  have i0 := calmIdle_of_calmRead h0.1
  have i1 := calmIdle_of_calmRead h1.1
  have hsp : getReg16 .sp s = .ok s.regs.sp s := rfl
  unfold exSp
  rw [run_bind_ok hsp, run_bind_ok (run_mr h0.1 (State.room_le hr (by decide))),
    run_bind_ok (run_mr (by simpa using h1.1) (by simpa using State.room_le hr (by decide))),
    run_bind_ok (run_internal (by simpa using i1) (by simpa using State.room_le hr (by decide))),
    run_bind_ok (run_getReg16 _ _),
    run_bind_ok (run_mw _ (by simpa using h1.2) (by simpa using State.room_le hr (by decide))),
    run_bind_ok (run_getReg16 _ _),
    run_bind_ok (run_mw _ (by simpa using h0.2) (by simpa using State.room_le hr (by decide))),
    run_bind_ok (run_internal (by simpa using i0) (by simpa using hr)), run_bind_ok (run_putReg16 _ _ _), run_modRegs]
  simp
  rfl

/-- The last or only iteration of a block transfer. -/
theorem run_ldBlock_last {s : State} (dir : Dir) (rep : Bool) (hc : (rep && s.regs.bc - 1 != 0) = false)
    (h : s.calmRead s.regs.hl = true) (h1 : s.calmWrite s.regs.de = true) (h2 : s.calmIdle s.regs.de = true)
    (hr : s.room 8) :
    ldBlock dir rep s =
      .ok () (((s.store s.regs.de (s.byteAt s.regs.hl)).withRegs (·.ldMoved dir (s.byteAt s.regs.hl))).after 8) := by
  unfold ldBlock
  rw [run_bind_ok (run_theRegs s), run_bind_ok (run_mr h (State.room_le hr (by decide))),
    run_bind_ok (run_mw _ (by simpa using h1) (by simpa using State.room_le hr (by decide))),
    run_bind_ok (run_internal (by simpa using h2) (by simpa using hr))]
  simp only [hc, Bool.false_eq_true, if_false]
  rw [run_modRegs]
  simp only [State.after_withRegs, State.after_store, State.withRegs_store, State.withRegs_withRegs, State.after_after,
    State.after_regs, State.withRegs_regs, State.store_regs, byteAt_after, byteAt_withRegs]
  rfl

/-- An iteration of a repeating block transfer that goes round again. -/
theorem run_ldBlock_again {s : State} (dir : Dir) (rep : Bool) (hc : (rep && s.regs.bc - 1 != 0) = true)
    (h : s.calmRead s.regs.hl = true) (h1 : s.calmWrite s.regs.de = true) (h2 : s.calmIdle s.regs.de = true)
    (hr : s.room 13) :
    ldBlock dir rep s = .ok () (((s.store s.regs.de (s.byteAt s.regs.hl)).withRegs fun g =>
      { repeatPc g with wz := g.pc - 1 }.ldMoved dir (s.byteAt s.regs.hl)).after 13) := by
  unfold ldBlock
  rw [run_bind_ok (run_theRegs s), run_bind_ok (run_mr h (State.room_le hr (by decide))),
    run_bind_ok (run_mw _ (by simpa using h1) (by simpa using State.room_le hr (by decide))),
    run_bind_ok (run_internal (by simpa using h2) (by simpa using State.room_le hr (by decide)))]
  simp only [hc, if_true]
  rw [run_bind_ok (run_internal (by simpa using h2) (by simpa using hr)), run_bind_ok (run_modRegs _ _), run_modRegs]
  simp only [State.after_withRegs, State.after_store, State.withRegs_store, State.withRegs_withRegs, State.after_after,
    State.after_regs, State.withRegs_regs, State.store_regs, byteAt_after, byteAt_withRegs]
  rfl

/-- The last or only iteration of a block search. -/
theorem run_cpBlock_last {s : State} (dir : Dir) (rep : Bool)
    (hc : (rep && s.regs.bc - 1 != 0 && s.regs.a - s.byteAt s.regs.hl != 0) = false) (h : s.calmRead s.regs.hl = true)
    (hr : s.room 8) :
    cpBlock dir rep s = .ok () ((s.withRegs fun g =>
      { g with wz := g.wz + blockInc dir }.cpMoved dir (s.byteAt s.regs.hl)).after 8) := by
  have h2 := calmIdle_of_calmRead h
  unfold cpBlock
  rw [run_bind_ok (run_theRegs s), run_bind_ok (run_mr h (State.room_le hr (by decide))),
    run_bind_ok (run_internal (by simpa using h2) (by simpa using hr))]
  simp only [hc, Bool.false_eq_true, if_false]
  rw [run_bind_ok (run_modRegs _ _), run_modRegs]
  simp only [State.after_withRegs, State.after_store, State.withRegs_store, State.withRegs_withRegs, State.after_after,
    State.after_regs, State.withRegs_regs, State.store_regs, byteAt_after, byteAt_withRegs]
  rfl

/-- An iteration of a repeating block search that goes round again. -/
theorem run_cpBlock_again {s : State} (dir : Dir) (rep : Bool)
    (hc : (rep && s.regs.bc - 1 != 0 && s.regs.a - s.byteAt s.regs.hl != 0) = true) (h : s.calmRead s.regs.hl = true)
    (hr : s.room 13) :
    cpBlock dir rep s = .ok () ((s.withRegs fun g =>
      { repeatPc g with wz := g.pc - 1 }.cpMoved dir (s.byteAt s.regs.hl)).after 13) := by
  have h2 := calmIdle_of_calmRead h
  unfold cpBlock
  rw [run_bind_ok (run_theRegs s), run_bind_ok (run_mr h (State.room_le hr (by decide))),
    run_bind_ok (run_internal (by simpa using h2) (by simpa using State.room_le hr (by decide)))]
  simp only [hc, if_true]
  rw [run_bind_ok (run_internal (by simpa using h2) (by simpa using hr)), run_bind_ok (run_modRegs _ _), run_modRegs]
  simp only [State.after_withRegs, State.after_store, State.withRegs_store, State.withRegs_withRegs, State.after_after,
    State.after_regs, State.withRegs_regs, State.store_regs, byteAt_after, byteAt_withRegs]
  rfl

/-! ## Jumps, calls and returns -/

theorem run_relative {s : State} (e : Byte) (h : s.calmIdle (s.regs.pc - 1) = true) (hr : s.room 5) :
    relative e s = .ok () ((s.withRegs fun g => { g with pc := g.pc + sext16 e, wz := g.pc + sext16 e }).after 5) := by
  unfold relative
  rw [run_bind_ok (run_theRegs s), run_bind_ok (run_internal h hr), run_bind_ok (run_theRegs _), run_jumpTo]
  rfl

theorem run_jpCc (cond : Cond) (nn : Word) (s : State) :
    jpCc cond nn s = .ok () (s.withRegs fun g => { g with wz := nn, pc := if condHolds cond g.flags then nn else g.pc }) := by
  unfold jpCc
  rw [run_bind_ok (run_modRegs _ _), run_bind_ok (run_testCond _ _)]
  have : (s.withRegs fun g => { g with wz := nn }).regs.flags = s.regs.flags := rfl
  rw [this]
  by_cases hc : condHolds cond s.regs.flags = true
  · rw [if_pos hc, run_modRegs]
    simp [State.withRegs, hc]
  · rw [if_neg hc, run_pure]
    simp [State.withRegs, hc]

theorem run_jrCc_taken {s : State} {cond : Cond} (e : Byte) (hc : condHolds cond s.regs.flags = true)
    (h : s.calmIdle (s.regs.pc - 1) = true) (hr : s.room 5) :
    jrCc cond e s = .ok () ((s.withRegs fun g => { g with pc := g.pc + sext16 e, wz := g.pc + sext16 e }).after 5) := by
  unfold jrCc
  rw [run_bind_ok (run_testCond _ _), if_pos hc, run_relative e h hr]

theorem run_jrCc_not {s : State} {cond : Cond} (e : Byte) (hc : condHolds cond s.regs.flags = false) :
    jrCc cond e s = .ok () s := by
  unfold jrCc
  rw [run_bind_ok (run_testCond _ _), if_neg (by simp [hc]), run_pure]

theorem run_djnz_taken {s : State} (e : Byte) (hb : s.regs.b - 1 ≠ 0) (h : s.calmIdle (s.regs.pc - 1) = true)
    (hr : s.room 5) :
    djnz e s =
      .ok () ((s.withRegs fun g => { g with b := g.b - 1, pc := g.pc + sext16 e, wz := g.pc + sext16 e }).after 5) := by
  unfold djnz
  rw [run_bind_ok (run_modRegs _ _), run_bind_ok (run_theRegs _), if_pos (by simpa using hb),
    run_relative e (by simpa using h) (by simpa using hr)]
  rfl

theorem run_djnz_not {s : State} (e : Byte) (hb : s.regs.b - 1 = 0) :
    djnz e s = .ok () (s.withRegs fun g => { g with b := 0 }) := by
  unfold djnz
  rw [run_bind_ok (run_modRegs _ _), run_bind_ok (run_theRegs _), if_neg (by simpa using hb), run_pure]
  simp only [State.withRegs, hb]

theorem run_callTo {s : State} (nn : Word) (h : s.calmIdle (s.regs.pc - 1) = true) (h1 : s.calmPush = true)
    (hr : s.room 7) :
    callTo nn s = .ok () (((s.pushed s.regs.pc).withRegs fun g => { g with pc := nn }).after 7) := by
  unfold callTo
  rw [run_bind_ok (run_theRegs s), run_bind_ok (run_internal h (State.room_le hr (by decide))),
    run_bind_ok (run_theRegs _), run_bind_ok (run_push16 _ (by simpa using h1) (by simpa using hr)), run_modRegs]
  simp

theorem run_call {s : State} (nn : Word) (h : s.calmIdle (s.regs.pc - 1) = true) (h1 : s.calmPush = true)
    (hr : s.room 7) :
    call nn s = .ok () (((s.pushed s.regs.pc).withRegs fun g => { g with pc := nn, wz := nn }).after 7) := by
  unfold call
  rw [run_bind_ok (run_modRegs _ _)]
  exact run_callTo (s := s.withRegs fun g => { g with wz := nn }) nn h h1 hr

theorem run_callCc_taken {s : State} {cond : Cond} (nn : Word) (hc : condHolds cond s.regs.flags = true)
    (h : s.calmIdle (s.regs.pc - 1) = true) (h1 : s.calmPush = true) (hr : s.room 7) :
    callCc cond nn s = .ok () (((s.pushed s.regs.pc).withRegs fun g => { g with pc := nn, wz := nn }).after 7) := by
  unfold callCc
  rw [run_bind_ok (run_modRegs _ _), run_bind_ok (run_testCond _ _)]
  refine (congrFun (if_pos hc) _).trans ?_
  exact run_callTo (s := s.withRegs fun g => { g with wz := nn }) nn h h1 hr

theorem run_callCc_not {s : State} {cond : Cond} (nn : Word) (hc : condHolds cond s.regs.flags = false) :
    callCc cond nn s = .ok () (s.withRegs fun g => { g with wz := nn }) := by
  unfold callCc
  rw [run_bind_ok (run_modRegs _ _), run_bind_ok (run_testCond _ _)]
  exact congrFun (if_neg (by change ¬condHolds cond s.regs.flags = true; simp [hc])) _

theorem run_ret {s : State} (h : s.calmPop = true) (hr : s.room 6) :
    ret s = .ok () ((s.withRegs fun g => { g with sp := g.sp + 2, pc := s.wordAt g.sp, wz := s.wordAt g.sp }).after 6) := by
  unfold ret
  rw [run_bind_ok (run_pop16 h hr), run_jumpTo]
  rfl

theorem run_retCc_taken {s : State} {cond : Cond} (hc : condHolds cond s.regs.flags = true)
    (h : s.calmIdle s.regs.ir = true) (h1 : s.calmPop = true) (hr : s.room 7) :
    retCc cond s =
      .ok () ((s.withRegs fun g => { g with sp := g.sp + 2, pc := s.wordAt g.sp, wz := s.wordAt g.sp }).after 7) := by
  unfold retCc
  rw [run_bind_ok (run_theRegs s), run_bind_ok (run_internal h (State.room_le hr (by decide))),
    run_bind_ok (run_testCond _ _), if_pos (by simpa using hc),
    run_bind_ok (run_pop16 (by simpa using h1) (by simpa using hr)), run_jumpTo]
  simp
  rfl

theorem run_retCc_not {s : State} {cond : Cond} (hc : condHolds cond s.regs.flags = false)
    (h : s.calmIdle s.regs.ir = true) (hr : s.room 1) : retCc cond s = .ok () (s.after 1) := by
  unfold retCc
  rw [run_bind_ok (run_theRegs s), run_bind_ok (run_internal h hr), run_bind_ok (run_testCond _ _),
    if_neg (by simp [hc]), run_pure]
  rfl

theorem run_returnInterrupt {s : State} (h : s.calmPop = true) (hr : s.room 6) :
    returnInterrupt s = .ok () ((s.withRegs fun g =>
      { g with sp := g.sp + 2, pc := s.wordAt g.sp, wz := s.wordAt g.sp, iff1 := g.iff2 }).after 6) := by
  unfold returnInterrupt
  rw [run_bind_ok (run_pop16 h hr), run_bind_ok (run_jumpTo _ _), run_modRegs]
  rfl

theorem run_rst {s : State} (y : Fin 8) (h : s.calmIdle s.regs.ir = true) (h1 : s.calmPush = true) (hr : s.room 7) :
    rst y s = .ok () (((s.pushed s.regs.pc).withRegs fun g =>
      { g with pc := BitVec.ofNat 16 (y.val * 8), wz := BitVec.ofNat 16 (y.val * 8) }).after 7) := by
  unfold rst
  rw [run_bind_ok (run_theRegs s), run_bind_ok (run_internal h (State.room_le hr (by decide))),
    run_bind_ok (run_theRegs _), run_bind_ok (run_push16 _ (by simpa using h1) (by simpa using hr)), run_jumpTo]
  simp

/-! ## Input and output -/

theorem run_inAN {s : State} (n : Byte) (h : s.calmIn (mkWord s.regs.a n) = true)
    (hr : s.room (s.ioDelay (mkWord s.regs.a n) + 4)) :
    inAN n s = .ok () ((s.input (mkWord s.regs.a n)).withRegs fun g =>
      { g with a := s.inputByte (mkWord s.regs.a n), wz := mkWord s.regs.a n + 1 }) := by
  have ha : getReg8 .a s = .ok s.regs.a s := rfl
  unfold inAN
  rw [run_bind_ok ha, run_bind_ok (run_ior h hr), run_modRegs]

theorem run_getBC (s : State) : getReg16 .bc s = .ok s.regs.bc s := rfl

theorem run_inRC {s : State} (r : Reg8) (h : s.calmIn s.regs.bc = true) (hr : s.room (s.ioDelay s.regs.bc + 4)) :
    inRC r s = .ok () ((s.input s.regs.bc).withRegs fun g =>
      { (g.set8 r (s.inputByte s.regs.bc)).setFlags (szpFlags (s.inputByte s.regs.bc) g.flags) with
        wz := s.regs.bc + 1 }) := by
  unfold inRC
  rw [run_bind_ok (run_getBC s), run_bind_ok (run_ior h hr), run_modRegs]

theorem run_inFC {s : State} (h : s.calmIn s.regs.bc = true) (hr : s.room (s.ioDelay s.regs.bc + 4)) :
    inFC s = .ok () ((s.input s.regs.bc).withRegs fun g =>
      { g.setFlags (szpFlags (s.inputByte s.regs.bc) g.flags) with wz := s.regs.bc + 1 }) := by
  unfold inFC
  rw [run_bind_ok (run_getBC s), run_bind_ok (run_ior h hr), run_modRegs]

theorem run_outNA {s : State} (n : Byte) (h : s.calmOut (mkWord s.regs.a n) s.regs.a = true)
    (hr : s.room (s.ioDelay (mkWord s.regs.a n) + 4)) :
    outNA n s = .ok () ((s.output (mkWord s.regs.a n) s.regs.a).withRegs fun g =>
      { g with wz := mkWord g.a (n + 1) }) := by
  have ha : getReg8 .a s = .ok s.regs.a s := rfl
  unfold outNA
  rw [run_bind_ok ha, run_bind_ok (run_iow h hr), run_modRegs]

theorem run_outC {s : State} (v : Byte) (h : s.calmOut s.regs.bc v = true) (hr : s.room (s.ioDelay s.regs.bc + 4)) :
    outC v s = .ok () ((s.output s.regs.bc v).withRegs fun g => { g with wz := s.regs.bc + 1 }) := by
  unfold outC
  rw [run_bind_ok (run_getBC s), run_bind_ok (run_iow h hr), run_modRegs]

theorem run_outCR {s : State} (r : Reg8) (h : s.calmOut s.regs.bc (s.regs.get8 r) = true)
    (hr : s.room (s.ioDelay s.regs.bc + 4)) :
    outCR r s = .ok () ((s.output s.regs.bc (s.regs.get8 r)).withRegs fun g => { g with wz := s.regs.bc + 1 }) := by
  unfold outCR
  rw [run_bind_ok (run_getReg8 _ _), run_outC _ h hr]

/-! ### What an input or output cycle leaves -/

theorem input_eq (s : State) (p : Word) :
    ∃ ch bi rm rb, s.input p = { s with cc := s.cc + s.ioDelay p + 4, chain := ch, byteIx := bi, replayMode := rm, recBytes := rb } := by
  simp only [State.input, State.replayNext]
  cases hm : (s.waited p).replayMode <;> simp only <;>
    first
      | exact ⟨_, _, _, _, rfl⟩
      | (split <;> exact ⟨_, _, _, _, rfl⟩)

@[simp] theorem input_regs (s : State) (p : Word) : (s.input p).regs = s.regs := by
  obtain ⟨_, _, _, _, h⟩ := input_eq s p; rw [h]
@[simp] theorem input_cc (s : State) (p : Word) : (s.input p).cc = s.cc + s.ioDelay p + 4 := by
  obtain ⟨_, _, _, _, h⟩ := input_eq s p; rw [h]
@[simp] theorem input_mem (s : State) (p : Word) : (s.input p).mem = s.mem := by
  obtain ⟨_, _, _, _, h⟩ := input_eq s p; rw [h]
@[simp] theorem input_pages (s : State) (p : Word) : (s.input p).pages = s.pages := by
  obtain ⟨_, _, _, _, h⟩ := input_eq s p; rw [h]
@[simp] theorem calmWrite_input (s : State) (p a : Word) : (s.input p).calmWrite a = s.calmWrite a := by
  obtain ⟨_, _, _, _, h⟩ := input_eq s p; rw [h]; rfl
@[simp] theorem calmIdle_input (s : State) (p a : Word) : (s.input p).calmIdle a = s.calmIdle a := by
  obtain ⟨_, _, _, _, h⟩ := input_eq s p; rw [h]; rfl
@[simp] theorem room_input (s : State) (p : Word) (k : Int) : (s.input p).room k ↔ s.room (s.ioDelay p + 4 + k) := by
  simp only [State.room, input_cc]; omega
@[simp] theorem output_regs (s : State) (p : Word) (v : Byte) : (s.output p v).regs = s.regs := rfl
@[simp] theorem output_mem (s : State) (p : Word) (v : Byte) : (s.output p v).mem = s.mem := rfl
@[simp] theorem calmIdle_output (s : State) (p a : Word) (v : Byte) : (s.output p v).calmIdle a = s.calmIdle a := rfl
@[simp] theorem room_output (s : State) (p : Word) (v : Byte) (k : Int) :
    (s.output p v).room k ↔ s.room (s.ioDelay p + 4 + k) := by
  have : (s.output p v).cc = s.cc + s.ioDelay p + 4 := rfl
  simp only [State.room, this]; omega

/-! ### Block input and output -/

/-- The last or only iteration of a block input. -/
theorem run_inBlock_last {s : State} (dir : Dir) (rep : Bool) (hc : (rep && s.regs.b - 1 != 0) = false)
    (h : s.calmIdle s.regs.ir = true) (h1 : (s.after 1).calmIn s.regs.bc = true) (h2 : s.calmWrite s.regs.hl = true)
    (hr : s.room (1 + ((s.after 1).ioDelay s.regs.bc + 4 + 3))) :
    inBlock dir rep s = .ok () (((((s.after 1).input s.regs.bc).store s.regs.hl
      ((s.after 1).inputByte s.regs.bc)).withRegs (·.inMoved dir ((s.after 1).inputByte s.regs.bc))).after 3) := by
  have hd : 0 ≤ (s.after 1).ioDelay s.regs.bc := by
    simp only [State.calmIn, Bool.and_eq_true, decide_eq_true_eq] at h1; exact h1.1
  unfold inBlock
  rw [run_bind_ok (run_theRegs s), run_bind_ok (run_internal h (State.room_le hr (by omega))),
    run_bind_ok (run_theRegs _)]
  refine (run_bind_ok (run_ior h1 (by simpa using State.room_le hr (by omega)))).trans ?_
  rw [run_bind_ok (run_modRegs _ _)]
  refine (run_bind_ok (run_mw _ (by simpa using h2) (by simpa using hr))).trans ?_
  refine (congrFun (if_neg (by rw [State.after_regs, hc]; exact Bool.false_ne_true)) _).trans ?_
  obtain ⟨_, _, _, _, he⟩ := input_eq (s.after 1) s.regs.bc
  rw [he]
  rfl

/-- An iteration of a repeating block input that goes round again. -/
theorem run_inBlock_again {s : State} (dir : Dir) (rep : Bool) (hc : (rep && s.regs.b - 1 != 0) = true)
    (h : s.calmIdle s.regs.ir = true) (h1 : (s.after 1).calmIn s.regs.bc = true) (h2 : s.calmWrite s.regs.hl = true)
    (h3 : s.calmIdle s.regs.hl = true) (hr : s.room (1 + ((s.after 1).ioDelay s.regs.bc + 4 + 8))) :
    inBlock dir rep s = .ok () (((((s.after 1).input s.regs.bc).store s.regs.hl
      ((s.after 1).inputByte s.regs.bc)).withRegs fun g =>
        repeatPc (g.inMoved dir ((s.after 1).inputByte s.regs.bc))).after 8) := by
  have hd : 0 ≤ (s.after 1).ioDelay s.regs.bc := by
    simp only [State.calmIn, Bool.and_eq_true, decide_eq_true_eq] at h1; exact h1.1
  unfold inBlock
  rw [run_bind_ok (run_theRegs s), run_bind_ok (run_internal h (State.room_le hr (by omega))),
    run_bind_ok (run_theRegs _)]
  refine (run_bind_ok (run_ior h1 (by simpa using State.room_le hr (by omega)))).trans ?_
  rw [run_bind_ok (run_modRegs _ _)]
  refine (run_bind_ok (run_mw _ (by simpa using h2) (by simpa using State.room_le hr (by omega)))).trans ?_
  refine (congrFun (if_pos (by rw [State.after_regs, hc])) _).trans ?_
  refine (run_bind_ok (run_internal (k := 5) (by simpa using h3)
    (by simpa [Int.add_assoc] using State.room_le hr (by omega)))).trans ?_
  rw [run_bind_ok (run_modRegs _ _)]
  refine (run_modRegs _ _).trans ?_
  obtain ⟨_, _, _, _, he⟩ := input_eq (s.after 1) s.regs.bc
  simp only [State.after_withRegs, State.after_store, State.withRegs_store, State.withRegs_withRegs, State.after_after]
  rw [he]
  rfl

/-- The last or only iteration of a block output. -/
theorem run_outBlock_last {s : State} (dir : Dir) (rep : Bool) (hc : (rep && s.regs.b - 1 != 0) = false)
    (h : s.calmIdle s.regs.ir = true) (h1 : s.calmRead s.regs.hl = true)
    (h2 : ((s.withRegs fun g => { g with b := g.b - 1 }).after 4).calmOut (mkWord (s.regs.b - 1) s.regs.c)
      (s.byteAt s.regs.hl) = true)
    (hr : s.room (4 + ((s.after 4).ioDelay (mkWord (s.regs.b - 1) s.regs.c) + 4))) :
    outBlock dir rep s = .ok () (((s.after 4).output (mkWord (s.regs.b - 1) s.regs.c) (s.byteAt s.regs.hl)).withRegs
      (·.outMoved dir (s.byteAt s.regs.hl))) := by
  have hd : 0 ≤ (s.after 4).ioDelay (mkWord (s.regs.b - 1) s.regs.c) := by
    simp only [State.calmOut, Bool.and_eq_true, decide_eq_true_eq] at h2; exact h2.1
  unfold outBlock
  rw [run_bind_ok (run_theRegs s), run_bind_ok (run_internal h (State.room_le hr (by omega))),
    run_bind_ok (run_theRegs _)]
  refine (run_bind_ok (run_mr (by simpa using h1) (by simpa using State.room_le hr (by omega)))).trans ?_
  rw [run_bind_ok (run_modRegs _ _), show (((s.after ((1 : Nat) : Int)).after 3).withRegs fun k =>
    { k with b := (s.after ((1 : Nat) : Int)).regs.b - 1 }) = (s.withRegs fun g => { g with b := g.b - 1 }).after 4 from by
      rw [State.after_after, State.after_withRegs]; rfl]
  refine (run_bind_ok (run_iow h2 ?_)).trans ?_
  · simp only [State.room_after, State.room_withRegs]; exact hr
  rw [run_bind_ok (run_modRegs _ _)]
  refine (congrFun (if_neg (by rw [State.after_regs, hc]; exact Bool.false_ne_true)) _).trans ?_
  rfl

/-- An iteration of a repeating block output that goes round again. -/
theorem run_outBlock_again {s : State} (dir : Dir) (rep : Bool) (hc : (rep && s.regs.b - 1 != 0) = true)
    (h : s.calmIdle s.regs.ir = true) (h1 : s.calmRead s.regs.hl = true)
    (h2 : ((s.withRegs fun g => { g with b := g.b - 1 }).after 4).calmOut (mkWord (s.regs.b - 1) s.regs.c)
      (s.byteAt s.regs.hl) = true)
    (h3 : s.calmIdle (mkWord (s.regs.b - 1) s.regs.c) = true)
    (hr : s.room (4 + ((s.after 4).ioDelay (mkWord (s.regs.b - 1) s.regs.c) + 4 + 5))) :
    outBlock dir rep s = .ok () ((((s.after 4).output (mkWord (s.regs.b - 1) s.regs.c) (s.byteAt s.regs.hl)).withRegs
      fun g => repeatPc (g.outMoved dir (s.byteAt s.regs.hl))).after 5) := by
  have hd : 0 ≤ (s.after 4).ioDelay (mkWord (s.regs.b - 1) s.regs.c) := by
    simp only [State.calmOut, Bool.and_eq_true, decide_eq_true_eq] at h2; exact h2.1
  unfold outBlock
  rw [run_bind_ok (run_theRegs s), run_bind_ok (run_internal h (State.room_le hr (by omega))),
    run_bind_ok (run_theRegs _)]
  refine (run_bind_ok (run_mr (by simpa using h1) (by simpa using State.room_le hr (by omega)))).trans ?_
  rw [run_bind_ok (run_modRegs _ _), show (((s.after ((1 : Nat) : Int)).after 3).withRegs fun k =>
    { k with b := (s.after ((1 : Nat) : Int)).regs.b - 1 }) = (s.withRegs fun g => { g with b := g.b - 1 }).after 4 from by
      rw [State.after_after, State.after_withRegs]; rfl]
  refine (run_bind_ok (run_iow h2 ?_)).trans ?_
  · simp only [State.room_after, State.room_withRegs]; exact State.room_le (j := 4 + ((s.after 4).ioDelay (mkWord (s.regs.b - 1) s.regs.c) + 4)) hr (by omega)
  rw [run_bind_ok (run_modRegs _ _)]
  refine (congrFun (if_pos (by rw [State.after_regs, hc])) _).trans ?_
  refine (run_bind_ok (run_internal (k := 5) (by simpa using h3) ?_)).trans ?_
  · simp only [State.room_withRegs, room_output, State.room_after]; exact hr
  rfl

end Sys2Proof.Machine
end

