-- ==== Sys2Proof/Tests/DecodeWords.lean ====
section
/-! SUPPORT. Every constructor's decoding, shown by a word: the opcode bits are those of spec/opcode_table.json, written out by
page in the table's order, the operand bytes `n` = 0x99, `e` = 0xFE, `d` = 0x85 and `nn` = 0x1234 in the order of
30_encoding.md rule R162. Bit 0 of a word is the least significant bit of its first byte. -/

namespace Sys2Proof.Tests

/-- Every word decodes to the instruction beside it: rows are bits, word, instruction. -/
abbrev Read (rows : List (List (Nat × Nat × Instr))) : Prop :=
  rows.map (List.map fun r => decodeTableWord r.1 r.2.1) = rows.map (List.map fun r => some r.2.2)

theorem test_words_main_0 : Read [
    [(8, 0x00, .nop), (24, 0x123401, .ld_BC_nn 0x1234), (8, 0x02, .ld_atBC_A), (8, 0x03, .inc_BC), (8, 0x04, .inc_B),
     (8, 0x05, .dec_B), (16, 0x9906, .ld_B_n 0x99), (8, 0x07, .rlca), (8, 0x08, .ex_AF_AF), (8, 0x09, .add_HL_BC),
     (8, 0x0A, .ld_A_atBC), (8, 0x0B, .dec_BC), (8, 0x0C, .inc_C), (8, 0x0D, .dec_C), (16, 0x990E, .ld_C_n 0x99),
     (8, 0x0F, .rrca)],
    [(16, 0xFE10, .djnz_e 0xFE), (24, 0x123411, .ld_DE_nn 0x1234), (8, 0x12, .ld_atDE_A), (8, 0x13, .inc_DE),
     (8, 0x14, .inc_D), (8, 0x15, .dec_D), (16, 0x9916, .ld_D_n 0x99), (8, 0x17, .rla), (16, 0xFE18, .jr_e 0xFE),
     (8, 0x19, .add_HL_DE), (8, 0x1A, .ld_A_atDE), (8, 0x1B, .dec_DE), (8, 0x1C, .inc_E), (8, 0x1D, .dec_E),
     (16, 0x991E, .ld_E_n 0x99), (8, 0x1F, .rra)],
    [(16, 0xFE20, .jr_NZ_e 0xFE), (24, 0x123421, .ld_HL_nn 0x1234), (24, 0x123422, .ld_atnn_HL 0x1234),
     (8, 0x23, .inc_HL), (8, 0x24, .inc_H), (8, 0x25, .dec_H), (16, 0x9926, .ld_H_n 0x99), (8, 0x27, .daa),
     (16, 0xFE28, .jr_Z_e 0xFE), (8, 0x29, .add_HL_HL), (24, 0x12342A, .ld_HL_atnn 0x1234), (8, 0x2B, .dec_HL),
     (8, 0x2C, .inc_L), (8, 0x2D, .dec_L), (16, 0x992E, .ld_L_n 0x99), (8, 0x2F, .cpl)]] := by rfl

theorem test_words_main_1 : Read [
    [(16, 0xFE30, .jr_NC_e 0xFE), (24, 0x123431, .ld_SP_nn 0x1234), (24, 0x123432, .ld_atnn_A 0x1234),
     (8, 0x33, .inc_SP), (8, 0x34, .inc_atHL), (8, 0x35, .dec_atHL), (16, 0x9936, .ld_atHL_n 0x99), (8, 0x37, .scf),
     (16, 0xFE38, .jr_C_e 0xFE), (8, 0x39, .add_HL_SP), (24, 0x12343A, .ld_A_atnn 0x1234), (8, 0x3B, .dec_SP),
     (8, 0x3C, .inc_A), (8, 0x3D, .dec_A), (16, 0x993E, .ld_A_n 0x99), (8, 0x3F, .ccf)],
    [(8, 0x40, .ld_B_B), (8, 0x41, .ld_B_C), (8, 0x42, .ld_B_D), (8, 0x43, .ld_B_E), (8, 0x44, .ld_B_H),
     (8, 0x45, .ld_B_L), (8, 0x46, .ld_B_atHL), (8, 0x47, .ld_B_A), (8, 0x48, .ld_C_B), (8, 0x49, .ld_C_C),
     (8, 0x4A, .ld_C_D), (8, 0x4B, .ld_C_E), (8, 0x4C, .ld_C_H), (8, 0x4D, .ld_C_L), (8, 0x4E, .ld_C_atHL),
     (8, 0x4F, .ld_C_A)],
    [(8, 0x50, .ld_D_B), (8, 0x51, .ld_D_C), (8, 0x52, .ld_D_D), (8, 0x53, .ld_D_E), (8, 0x54, .ld_D_H),
     (8, 0x55, .ld_D_L), (8, 0x56, .ld_D_atHL), (8, 0x57, .ld_D_A), (8, 0x58, .ld_E_B), (8, 0x59, .ld_E_C),
     (8, 0x5A, .ld_E_D), (8, 0x5B, .ld_E_E), (8, 0x5C, .ld_E_H), (8, 0x5D, .ld_E_L), (8, 0x5E, .ld_E_atHL),
     (8, 0x5F, .ld_E_A)]] := by rfl

theorem test_words_main_2 : Read [
    [(8, 0x60, .ld_H_B), (8, 0x61, .ld_H_C), (8, 0x62, .ld_H_D), (8, 0x63, .ld_H_E), (8, 0x64, .ld_H_H),
     (8, 0x65, .ld_H_L), (8, 0x66, .ld_H_atHL), (8, 0x67, .ld_H_A), (8, 0x68, .ld_L_B), (8, 0x69, .ld_L_C),
     (8, 0x6A, .ld_L_D), (8, 0x6B, .ld_L_E), (8, 0x6C, .ld_L_H), (8, 0x6D, .ld_L_L), (8, 0x6E, .ld_L_atHL),
     (8, 0x6F, .ld_L_A)],
    [(8, 0x70, .ld_atHL_B), (8, 0x71, .ld_atHL_C), (8, 0x72, .ld_atHL_D), (8, 0x73, .ld_atHL_E),
     (8, 0x74, .ld_atHL_H), (8, 0x75, .ld_atHL_L), (8, 0x76, .halt), (8, 0x77, .ld_atHL_A), (8, 0x78, .ld_A_B),
     (8, 0x79, .ld_A_C), (8, 0x7A, .ld_A_D), (8, 0x7B, .ld_A_E), (8, 0x7C, .ld_A_H), (8, 0x7D, .ld_A_L),
     (8, 0x7E, .ld_A_atHL), (8, 0x7F, .ld_A_A)],
    [(8, 0x80, .add_A_B), (8, 0x81, .add_A_C), (8, 0x82, .add_A_D), (8, 0x83, .add_A_E), (8, 0x84, .add_A_H),
     (8, 0x85, .add_A_L), (8, 0x86, .add_A_atHL), (8, 0x87, .add_A_A), (8, 0x88, .adc_A_B), (8, 0x89, .adc_A_C),
     (8, 0x8A, .adc_A_D), (8, 0x8B, .adc_A_E), (8, 0x8C, .adc_A_H), (8, 0x8D, .adc_A_L), (8, 0x8E, .adc_A_atHL),
     (8, 0x8F, .adc_A_A)]] := by rfl

theorem test_words_main_3 : Read [
    [(8, 0x90, .sub_B), (8, 0x91, .sub_C), (8, 0x92, .sub_D), (8, 0x93, .sub_E), (8, 0x94, .sub_H),
     (8, 0x95, .sub_L), (8, 0x96, .sub_atHL), (8, 0x97, .sub_A), (8, 0x98, .sbc_A_B), (8, 0x99, .sbc_A_C),
     (8, 0x9A, .sbc_A_D), (8, 0x9B, .sbc_A_E), (8, 0x9C, .sbc_A_H), (8, 0x9D, .sbc_A_L), (8, 0x9E, .sbc_A_atHL),
     (8, 0x9F, .sbc_A_A)],
    [(8, 0xA0, .and_B), (8, 0xA1, .and_C), (8, 0xA2, .and_D), (8, 0xA3, .and_E), (8, 0xA4, .and_H),
     (8, 0xA5, .and_L), (8, 0xA6, .and_atHL), (8, 0xA7, .and_A), (8, 0xA8, .xor_B), (8, 0xA9, .xor_C),
     (8, 0xAA, .xor_D), (8, 0xAB, .xor_E), (8, 0xAC, .xor_H), (8, 0xAD, .xor_L), (8, 0xAE, .xor_atHL),
     (8, 0xAF, .xor_A)],
    [(8, 0xB0, .or_B), (8, 0xB1, .or_C), (8, 0xB2, .or_D), (8, 0xB3, .or_E), (8, 0xB4, .or_H), (8, 0xB5, .or_L),
     (8, 0xB6, .or_atHL), (8, 0xB7, .or_A), (8, 0xB8, .cp_B), (8, 0xB9, .cp_C), (8, 0xBA, .cp_D), (8, 0xBB, .cp_E),
     (8, 0xBC, .cp_H), (8, 0xBD, .cp_L), (8, 0xBE, .cp_atHL), (8, 0xBF, .cp_A)]] := by rfl

theorem test_words_main_4 : Read [
    [(8, 0xC0, .ret_NZ), (8, 0xC1, .pop_BC), (24, 0x1234C2, .jp_NZ_nn 0x1234), (24, 0x1234C3, .jp_nn 0x1234),
     (24, 0x1234C4, .call_NZ_nn 0x1234), (8, 0xC5, .push_BC), (16, 0x99C6, .add_A_n 0x99), (8, 0xC7, .rst_00H),
     (8, 0xC8, .ret_Z), (8, 0xC9, .ret), (24, 0x1234CA, .jp_Z_nn 0x1234), (24, 0x1234CC, .call_Z_nn 0x1234),
     (24, 0x1234CD, .call_nn 0x1234), (16, 0x99CE, .adc_A_n 0x99), (8, 0xCF, .rst_08H), (8, 0xD0, .ret_NC)],
    [(8, 0xD1, .pop_DE), (24, 0x1234D2, .jp_NC_nn 0x1234), (16, 0x99D3, .out_atn_A 0x99),
     (24, 0x1234D4, .call_NC_nn 0x1234), (8, 0xD5, .push_DE), (16, 0x99D6, .sub_n 0x99), (8, 0xD7, .rst_10H),
     (8, 0xD8, .ret_C), (8, 0xD9, .exx), (24, 0x1234DA, .jp_C_nn 0x1234), (16, 0x99DB, .in_A_atn 0x99),
     (24, 0x1234DC, .call_C_nn 0x1234), (16, 0x99DE, .sbc_A_n 0x99), (8, 0xDF, .rst_18H), (8, 0xE0, .ret_PO),
     (8, 0xE1, .pop_HL)],
    [(24, 0x1234E2, .jp_PO_nn 0x1234), (8, 0xE3, .ex_atSP_HL), (24, 0x1234E4, .call_PO_nn 0x1234),
     (8, 0xE5, .push_HL), (16, 0x99E6, .and_n 0x99), (8, 0xE7, .rst_20H), (8, 0xE8, .ret_PE), (8, 0xE9, .jp_atHL),
     (24, 0x1234EA, .jp_PE_nn 0x1234), (8, 0xEB, .ex_DE_HL), (24, 0x1234EC, .call_PE_nn 0x1234),
     (16, 0x99EE, .xor_n 0x99), (8, 0xEF, .rst_28H), (8, 0xF0, .ret_P), (8, 0xF1, .pop_AF),
     (24, 0x1234F2, .jp_P_nn 0x1234)]] := by rfl

theorem test_words_main_5 : Read [
    [(8, 0xF3, .di), (24, 0x1234F4, .call_P_nn 0x1234), (8, 0xF5, .push_AF), (16, 0x99F6, .or_n 0x99),
     (8, 0xF7, .rst_30H), (8, 0xF8, .ret_M), (8, 0xF9, .ld_SP_HL), (24, 0x1234FA, .jp_M_nn 0x1234), (8, 0xFB, .ei),
     (24, 0x1234FC, .call_M_nn 0x1234), (16, 0x99FE, .cp_n 0x99), (8, 0xFF, .rst_38H)]] := by rfl

theorem test_words_cb_0 : Read [
    [(16, 0x00CB, .rlc_B), (16, 0x01CB, .rlc_C), (16, 0x02CB, .rlc_D), (16, 0x03CB, .rlc_E), (16, 0x04CB, .rlc_H),
     (16, 0x05CB, .rlc_L), (16, 0x06CB, .rlc_atHL), (16, 0x07CB, .rlc_A), (16, 0x08CB, .rrc_B), (16, 0x09CB, .rrc_C),
     (16, 0x0ACB, .rrc_D), (16, 0x0BCB, .rrc_E), (16, 0x0CCB, .rrc_H), (16, 0x0DCB, .rrc_L), (16, 0x0ECB, .rrc_atHL),
     (16, 0x0FCB, .rrc_A)],
    [(16, 0x10CB, .rl_B), (16, 0x11CB, .rl_C), (16, 0x12CB, .rl_D), (16, 0x13CB, .rl_E), (16, 0x14CB, .rl_H),
     (16, 0x15CB, .rl_L), (16, 0x16CB, .rl_atHL), (16, 0x17CB, .rl_A), (16, 0x18CB, .rr_B), (16, 0x19CB, .rr_C),
     (16, 0x1ACB, .rr_D), (16, 0x1BCB, .rr_E), (16, 0x1CCB, .rr_H), (16, 0x1DCB, .rr_L), (16, 0x1ECB, .rr_atHL),
     (16, 0x1FCB, .rr_A)],
    [(16, 0x20CB, .sla_B), (16, 0x21CB, .sla_C), (16, 0x22CB, .sla_D), (16, 0x23CB, .sla_E), (16, 0x24CB, .sla_H),
     (16, 0x25CB, .sla_L), (16, 0x26CB, .sla_atHL), (16, 0x27CB, .sla_A), (16, 0x28CB, .sra_B), (16, 0x29CB, .sra_C),
     (16, 0x2ACB, .sra_D), (16, 0x2BCB, .sra_E), (16, 0x2CCB, .sra_H), (16, 0x2DCB, .sra_L), (16, 0x2ECB, .sra_atHL),
     (16, 0x2FCB, .sra_A)]] := by rfl

theorem test_words_cb_1 : Read [
    [(16, 0x30CB, .sll_B), (16, 0x31CB, .sll_C), (16, 0x32CB, .sll_D), (16, 0x33CB, .sll_E), (16, 0x34CB, .sll_H),
     (16, 0x35CB, .sll_L), (16, 0x36CB, .sll_atHL), (16, 0x37CB, .sll_A), (16, 0x38CB, .srl_B), (16, 0x39CB, .srl_C),
     (16, 0x3ACB, .srl_D), (16, 0x3BCB, .srl_E), (16, 0x3CCB, .srl_H), (16, 0x3DCB, .srl_L), (16, 0x3ECB, .srl_atHL),
     (16, 0x3FCB, .srl_A)],
    [(16, 0x40CB, .bit_0_B), (16, 0x41CB, .bit_0_C), (16, 0x42CB, .bit_0_D), (16, 0x43CB, .bit_0_E),
     (16, 0x44CB, .bit_0_H), (16, 0x45CB, .bit_0_L), (16, 0x46CB, .bit_0_atHL), (16, 0x47CB, .bit_0_A),
     (16, 0x48CB, .bit_1_B), (16, 0x49CB, .bit_1_C), (16, 0x4ACB, .bit_1_D), (16, 0x4BCB, .bit_1_E),
     (16, 0x4CCB, .bit_1_H), (16, 0x4DCB, .bit_1_L), (16, 0x4ECB, .bit_1_atHL), (16, 0x4FCB, .bit_1_A)],
    [(16, 0x50CB, .bit_2_B), (16, 0x51CB, .bit_2_C), (16, 0x52CB, .bit_2_D), (16, 0x53CB, .bit_2_E),
     (16, 0x54CB, .bit_2_H), (16, 0x55CB, .bit_2_L), (16, 0x56CB, .bit_2_atHL), (16, 0x57CB, .bit_2_A),
     (16, 0x58CB, .bit_3_B), (16, 0x59CB, .bit_3_C), (16, 0x5ACB, .bit_3_D), (16, 0x5BCB, .bit_3_E),
     (16, 0x5CCB, .bit_3_H), (16, 0x5DCB, .bit_3_L), (16, 0x5ECB, .bit_3_atHL), (16, 0x5FCB, .bit_3_A)]] := by rfl

theorem test_words_cb_2 : Read [
    [(16, 0x60CB, .bit_4_B), (16, 0x61CB, .bit_4_C), (16, 0x62CB, .bit_4_D), (16, 0x63CB, .bit_4_E),
     (16, 0x64CB, .bit_4_H), (16, 0x65CB, .bit_4_L), (16, 0x66CB, .bit_4_atHL), (16, 0x67CB, .bit_4_A),
     (16, 0x68CB, .bit_5_B), (16, 0x69CB, .bit_5_C), (16, 0x6ACB, .bit_5_D), (16, 0x6BCB, .bit_5_E),
     (16, 0x6CCB, .bit_5_H), (16, 0x6DCB, .bit_5_L), (16, 0x6ECB, .bit_5_atHL), (16, 0x6FCB, .bit_5_A)],
    [(16, 0x70CB, .bit_6_B), (16, 0x71CB, .bit_6_C), (16, 0x72CB, .bit_6_D), (16, 0x73CB, .bit_6_E),
     (16, 0x74CB, .bit_6_H), (16, 0x75CB, .bit_6_L), (16, 0x76CB, .bit_6_atHL), (16, 0x77CB, .bit_6_A),
     (16, 0x78CB, .bit_7_B), (16, 0x79CB, .bit_7_C), (16, 0x7ACB, .bit_7_D), (16, 0x7BCB, .bit_7_E),
     (16, 0x7CCB, .bit_7_H), (16, 0x7DCB, .bit_7_L), (16, 0x7ECB, .bit_7_atHL), (16, 0x7FCB, .bit_7_A)],
    [(16, 0x80CB, .res_0_B), (16, 0x81CB, .res_0_C), (16, 0x82CB, .res_0_D), (16, 0x83CB, .res_0_E),
     (16, 0x84CB, .res_0_H), (16, 0x85CB, .res_0_L), (16, 0x86CB, .res_0_atHL), (16, 0x87CB, .res_0_A),
     (16, 0x88CB, .res_1_B), (16, 0x89CB, .res_1_C), (16, 0x8ACB, .res_1_D), (16, 0x8BCB, .res_1_E),
     (16, 0x8CCB, .res_1_H), (16, 0x8DCB, .res_1_L), (16, 0x8ECB, .res_1_atHL), (16, 0x8FCB, .res_1_A)]] := by rfl

theorem test_words_cb_3 : Read [
    [(16, 0x90CB, .res_2_B), (16, 0x91CB, .res_2_C), (16, 0x92CB, .res_2_D), (16, 0x93CB, .res_2_E),
     (16, 0x94CB, .res_2_H), (16, 0x95CB, .res_2_L), (16, 0x96CB, .res_2_atHL), (16, 0x97CB, .res_2_A),
     (16, 0x98CB, .res_3_B), (16, 0x99CB, .res_3_C), (16, 0x9ACB, .res_3_D), (16, 0x9BCB, .res_3_E),
     (16, 0x9CCB, .res_3_H), (16, 0x9DCB, .res_3_L), (16, 0x9ECB, .res_3_atHL), (16, 0x9FCB, .res_3_A)],
    [(16, 0xA0CB, .res_4_B), (16, 0xA1CB, .res_4_C), (16, 0xA2CB, .res_4_D), (16, 0xA3CB, .res_4_E),
     (16, 0xA4CB, .res_4_H), (16, 0xA5CB, .res_4_L), (16, 0xA6CB, .res_4_atHL), (16, 0xA7CB, .res_4_A),
     (16, 0xA8CB, .res_5_B), (16, 0xA9CB, .res_5_C), (16, 0xAACB, .res_5_D), (16, 0xABCB, .res_5_E),
     (16, 0xACCB, .res_5_H), (16, 0xADCB, .res_5_L), (16, 0xAECB, .res_5_atHL), (16, 0xAFCB, .res_5_A)],
    [(16, 0xB0CB, .res_6_B), (16, 0xB1CB, .res_6_C), (16, 0xB2CB, .res_6_D), (16, 0xB3CB, .res_6_E),
     (16, 0xB4CB, .res_6_H), (16, 0xB5CB, .res_6_L), (16, 0xB6CB, .res_6_atHL), (16, 0xB7CB, .res_6_A),
     (16, 0xB8CB, .res_7_B), (16, 0xB9CB, .res_7_C), (16, 0xBACB, .res_7_D), (16, 0xBBCB, .res_7_E),
     (16, 0xBCCB, .res_7_H), (16, 0xBDCB, .res_7_L), (16, 0xBECB, .res_7_atHL), (16, 0xBFCB, .res_7_A)]] := by rfl

theorem test_words_cb_4 : Read [
    [(16, 0xC0CB, .set_0_B), (16, 0xC1CB, .set_0_C), (16, 0xC2CB, .set_0_D), (16, 0xC3CB, .set_0_E),
     (16, 0xC4CB, .set_0_H), (16, 0xC5CB, .set_0_L), (16, 0xC6CB, .set_0_atHL), (16, 0xC7CB, .set_0_A),
     (16, 0xC8CB, .set_1_B), (16, 0xC9CB, .set_1_C), (16, 0xCACB, .set_1_D), (16, 0xCBCB, .set_1_E),
     (16, 0xCCCB, .set_1_H), (16, 0xCDCB, .set_1_L), (16, 0xCECB, .set_1_atHL), (16, 0xCFCB, .set_1_A)],
    [(16, 0xD0CB, .set_2_B), (16, 0xD1CB, .set_2_C), (16, 0xD2CB, .set_2_D), (16, 0xD3CB, .set_2_E),
     (16, 0xD4CB, .set_2_H), (16, 0xD5CB, .set_2_L), (16, 0xD6CB, .set_2_atHL), (16, 0xD7CB, .set_2_A),
     (16, 0xD8CB, .set_3_B), (16, 0xD9CB, .set_3_C), (16, 0xDACB, .set_3_D), (16, 0xDBCB, .set_3_E),
     (16, 0xDCCB, .set_3_H), (16, 0xDDCB, .set_3_L), (16, 0xDECB, .set_3_atHL), (16, 0xDFCB, .set_3_A)],
    [(16, 0xE0CB, .set_4_B), (16, 0xE1CB, .set_4_C), (16, 0xE2CB, .set_4_D), (16, 0xE3CB, .set_4_E),
     (16, 0xE4CB, .set_4_H), (16, 0xE5CB, .set_4_L), (16, 0xE6CB, .set_4_atHL), (16, 0xE7CB, .set_4_A),
     (16, 0xE8CB, .set_5_B), (16, 0xE9CB, .set_5_C), (16, 0xEACB, .set_5_D), (16, 0xEBCB, .set_5_E),
     (16, 0xECCB, .set_5_H), (16, 0xEDCB, .set_5_L), (16, 0xEECB, .set_5_atHL), (16, 0xEFCB, .set_5_A)]] := by rfl

theorem test_words_cb_5 : Read [
    [(16, 0xF0CB, .set_6_B), (16, 0xF1CB, .set_6_C), (16, 0xF2CB, .set_6_D), (16, 0xF3CB, .set_6_E),
     (16, 0xF4CB, .set_6_H), (16, 0xF5CB, .set_6_L), (16, 0xF6CB, .set_6_atHL), (16, 0xF7CB, .set_6_A),
     (16, 0xF8CB, .set_7_B), (16, 0xF9CB, .set_7_C), (16, 0xFACB, .set_7_D), (16, 0xFBCB, .set_7_E),
     (16, 0xFCCB, .set_7_H), (16, 0xFDCB, .set_7_L), (16, 0xFECB, .set_7_atHL), (16, 0xFFCB, .set_7_A)]] := by rfl

theorem test_words_ed_0 : Read [
    [(16, 0x00ED, .edNop 0x00), (16, 0x40ED, .in_B_atC), (16, 0x41ED, .out_atC_B), (16, 0x42ED, .sbc_HL_BC),
     (32, 0x123443ED, .ld_atnn_BC 0x1234), (16, 0x44ED, .neg 0), (16, 0x45ED, .retn 0), (16, 0x46ED, .im_0 false),
     (16, 0x47ED, .ld_I_A), (16, 0x48ED, .in_C_atC), (16, 0x49ED, .out_atC_C), (16, 0x4AED, .adc_HL_BC),
     (32, 0x12344BED, .ld_BC_atnn 0x1234), (16, 0x4CED, .neg 1), (16, 0x4DED, .reti), (16, 0x4EED, .im_0_1 false)],
    [(16, 0x4FED, .ld_R_A), (16, 0x50ED, .in_D_atC), (16, 0x51ED, .out_atC_D), (16, 0x52ED, .sbc_HL_DE),
     (32, 0x123453ED, .ld_atnn_DE 0x1234), (16, 0x54ED, .neg 2), (16, 0x55ED, .retn 2), (16, 0x56ED, .im_1 false),
     (16, 0x57ED, .ld_A_I), (16, 0x58ED, .in_E_atC), (16, 0x59ED, .out_atC_E), (16, 0x5AED, .adc_HL_DE),
     (32, 0x12345BED, .ld_DE_atnn 0x1234), (16, 0x5CED, .neg 3), (16, 0x5DED, .retn 3), (16, 0x5EED, .im_2 false)],
    [(16, 0x5FED, .ld_A_R), (16, 0x60ED, .in_H_atC), (16, 0x61ED, .out_atC_H), (16, 0x62ED, .sbc_HL_HL),
     (32, 0x123463ED, .ld_atnn_HL_ed 0x1234), (16, 0x64ED, .neg 4), (16, 0x65ED, .retn 4), (16, 0x66ED, .im_0 true),
     (16, 0x67ED, .rrd), (16, 0x68ED, .in_L_atC), (16, 0x69ED, .out_atC_L), (16, 0x6AED, .adc_HL_HL),
     (32, 0x12346BED, .ld_HL_atnn_ed 0x1234), (16, 0x6CED, .neg 5), (16, 0x6DED, .retn 5), (16, 0x6EED, .im_0_1 true)]] := by rfl

theorem test_words_ed_1 : Read [
    [(16, 0x6FED, .rld), (16, 0x70ED, .in_F_atC), (16, 0x71ED, .out_atC_0), (16, 0x72ED, .sbc_HL_SP),
     (32, 0x123473ED, .ld_atnn_SP 0x1234), (16, 0x74ED, .neg 6), (16, 0x75ED, .retn 6), (16, 0x76ED, .im_1 true),
     (16, 0x78ED, .in_A_atC), (16, 0x79ED, .out_atC_A), (16, 0x7AED, .adc_HL_SP),
     (32, 0x12347BED, .ld_SP_atnn 0x1234), (16, 0x7CED, .neg 7), (16, 0x7DED, .retn 7), (16, 0x7EED, .im_2 true),
     (16, 0xA0ED, .ldi)],
    [(16, 0xA1ED, .cpi), (16, 0xA2ED, .ini), (16, 0xA3ED, .outi), (16, 0xA8ED, .ldd), (16, 0xA9ED, .cpd),
     (16, 0xAAED, .ind), (16, 0xABED, .outd), (16, 0xB0ED, .ldir), (16, 0xB1ED, .cpir), (16, 0xB2ED, .inir),
     (16, 0xB3ED, .otir), (16, 0xB8ED, .lddr), (16, 0xB9ED, .cpdr), (16, 0xBAED, .indr), (16, 0xBBED, .otdr)]] := by rfl

theorem test_words_dd_0 : Read [
    [(16, 0x00DD, .ddIgnored_NOP), (16, 0x01DD, .ddIgnored_LD_BC_nn), (16, 0x02DD, .ddIgnored_LD_atBC_A),
     (16, 0x03DD, .ddIgnored_INC_BC), (16, 0x04DD, .ddIgnored_INC_B), (16, 0x05DD, .ddIgnored_DEC_B),
     (16, 0x06DD, .ddIgnored_LD_B_n), (16, 0x07DD, .ddIgnored_RLCA), (16, 0x08DD, .ddIgnored_EX_AF_AF),
     (16, 0x09DD, .add_IX_BC), (16, 0x0ADD, .ddIgnored_LD_A_atBC), (16, 0x0BDD, .ddIgnored_DEC_BC),
     (16, 0x0CDD, .ddIgnored_INC_C), (16, 0x0DDD, .ddIgnored_DEC_C), (16, 0x0EDD, .ddIgnored_LD_C_n),
     (16, 0x0FDD, .ddIgnored_RRCA)],
    [(16, 0x10DD, .ddIgnored_DJNZ_e), (16, 0x11DD, .ddIgnored_LD_DE_nn), (16, 0x12DD, .ddIgnored_LD_atDE_A),
     (16, 0x13DD, .ddIgnored_INC_DE), (16, 0x14DD, .ddIgnored_INC_D), (16, 0x15DD, .ddIgnored_DEC_D),
     (16, 0x16DD, .ddIgnored_LD_D_n), (16, 0x17DD, .ddIgnored_RLA), (16, 0x18DD, .ddIgnored_JR_e),
     (16, 0x19DD, .add_IX_DE), (16, 0x1ADD, .ddIgnored_LD_A_atDE), (16, 0x1BDD, .ddIgnored_DEC_DE),
     (16, 0x1CDD, .ddIgnored_INC_E), (16, 0x1DDD, .ddIgnored_DEC_E), (16, 0x1EDD, .ddIgnored_LD_E_n),
     (16, 0x1FDD, .ddIgnored_RRA)],
    [(16, 0x20DD, .ddIgnored_JR_NZ_e), (32, 0x123421DD, .ld_IX_nn 0x1234), (32, 0x123422DD, .ld_atnn_IX 0x1234),
     (16, 0x23DD, .inc_IX), (16, 0x24DD, .inc_IXH), (16, 0x25DD, .dec_IXH), (24, 0x9926DD, .ld_IXH_n 0x99),
     (16, 0x27DD, .ddIgnored_DAA), (16, 0x28DD, .ddIgnored_JR_Z_e), (16, 0x29DD, .add_IX_IX),
     (32, 0x12342ADD, .ld_IX_atnn 0x1234), (16, 0x2BDD, .dec_IX), (16, 0x2CDD, .inc_IXL), (16, 0x2DDD, .dec_IXL),
     (24, 0x992EDD, .ld_IXL_n 0x99), (16, 0x2FDD, .ddIgnored_CPL)]] := by rfl

theorem test_words_dd_1 : Read [
    [(16, 0x30DD, .ddIgnored_JR_NC_e), (16, 0x31DD, .ddIgnored_LD_SP_nn), (16, 0x32DD, .ddIgnored_LD_atnn_A),
     (16, 0x33DD, .ddIgnored_INC_SP), (24, 0x8534DD, .inc_atIXd 0x85), (24, 0x8535DD, .dec_atIXd 0x85),
     (32, 0x998536DD, .ld_atIXd_n 0x85 0x99), (16, 0x37DD, .ddIgnored_SCF), (16, 0x38DD, .ddIgnored_JR_C_e),
     (16, 0x39DD, .add_IX_SP), (16, 0x3ADD, .ddIgnored_LD_A_atnn), (16, 0x3BDD, .ddIgnored_DEC_SP),
     (16, 0x3CDD, .ddIgnored_INC_A), (16, 0x3DDD, .ddIgnored_DEC_A), (16, 0x3EDD, .ddIgnored_LD_A_n),
     (16, 0x3FDD, .ddIgnored_CCF)],
    [(16, 0x40DD, .ddIgnored_LD_B_B), (16, 0x41DD, .ddIgnored_LD_B_C), (16, 0x42DD, .ddIgnored_LD_B_D),
     (16, 0x43DD, .ddIgnored_LD_B_E), (16, 0x44DD, .ld_B_IXH), (16, 0x45DD, .ld_B_IXL),
     (24, 0x8546DD, .ld_B_atIXd 0x85), (16, 0x47DD, .ddIgnored_LD_B_A), (16, 0x48DD, .ddIgnored_LD_C_B),
     (16, 0x49DD, .ddIgnored_LD_C_C), (16, 0x4ADD, .ddIgnored_LD_C_D), (16, 0x4BDD, .ddIgnored_LD_C_E),
     (16, 0x4CDD, .ld_C_IXH), (16, 0x4DDD, .ld_C_IXL), (24, 0x854EDD, .ld_C_atIXd 0x85),
     (16, 0x4FDD, .ddIgnored_LD_C_A)],
    [(16, 0x50DD, .ddIgnored_LD_D_B), (16, 0x51DD, .ddIgnored_LD_D_C), (16, 0x52DD, .ddIgnored_LD_D_D),
     (16, 0x53DD, .ddIgnored_LD_D_E), (16, 0x54DD, .ld_D_IXH), (16, 0x55DD, .ld_D_IXL),
     (24, 0x8556DD, .ld_D_atIXd 0x85), (16, 0x57DD, .ddIgnored_LD_D_A), (16, 0x58DD, .ddIgnored_LD_E_B),
     (16, 0x59DD, .ddIgnored_LD_E_C), (16, 0x5ADD, .ddIgnored_LD_E_D), (16, 0x5BDD, .ddIgnored_LD_E_E),
     (16, 0x5CDD, .ld_E_IXH), (16, 0x5DDD, .ld_E_IXL), (24, 0x855EDD, .ld_E_atIXd 0x85),
     (16, 0x5FDD, .ddIgnored_LD_E_A)]] := by rfl

theorem test_words_dd_2 : Read [
    [(16, 0x60DD, .ld_IXH_B), (16, 0x61DD, .ld_IXH_C), (16, 0x62DD, .ld_IXH_D), (16, 0x63DD, .ld_IXH_E),
     (16, 0x64DD, .ld_IXH_IXH), (16, 0x65DD, .ld_IXH_IXL), (24, 0x8566DD, .ld_H_atIXd 0x85), (16, 0x67DD, .ld_IXH_A),
     (16, 0x68DD, .ld_IXL_B), (16, 0x69DD, .ld_IXL_C), (16, 0x6ADD, .ld_IXL_D), (16, 0x6BDD, .ld_IXL_E),
     (16, 0x6CDD, .ld_IXL_IXH), (16, 0x6DDD, .ld_IXL_IXL), (24, 0x856EDD, .ld_L_atIXd 0x85), (16, 0x6FDD, .ld_IXL_A)],
    [(24, 0x8570DD, .ld_atIXd_B 0x85), (24, 0x8571DD, .ld_atIXd_C 0x85), (24, 0x8572DD, .ld_atIXd_D 0x85),
     (24, 0x8573DD, .ld_atIXd_E 0x85), (24, 0x8574DD, .ld_atIXd_H 0x85), (24, 0x8575DD, .ld_atIXd_L 0x85),
     (16, 0x76DD, .ddIgnored_HALT), (24, 0x8577DD, .ld_atIXd_A 0x85), (16, 0x78DD, .ddIgnored_LD_A_B),
     (16, 0x79DD, .ddIgnored_LD_A_C), (16, 0x7ADD, .ddIgnored_LD_A_D), (16, 0x7BDD, .ddIgnored_LD_A_E),
     (16, 0x7CDD, .ld_A_IXH), (16, 0x7DDD, .ld_A_IXL), (24, 0x857EDD, .ld_A_atIXd 0x85),
     (16, 0x7FDD, .ddIgnored_LD_A_A)],
    [(16, 0x80DD, .ddIgnored_ADD_A_B), (16, 0x81DD, .ddIgnored_ADD_A_C), (16, 0x82DD, .ddIgnored_ADD_A_D),
     (16, 0x83DD, .ddIgnored_ADD_A_E), (16, 0x84DD, .add_A_IXH), (16, 0x85DD, .add_A_IXL),
     (24, 0x8586DD, .add_A_atIXd 0x85), (16, 0x87DD, .ddIgnored_ADD_A_A), (16, 0x88DD, .ddIgnored_ADC_A_B),
     (16, 0x89DD, .ddIgnored_ADC_A_C), (16, 0x8ADD, .ddIgnored_ADC_A_D), (16, 0x8BDD, .ddIgnored_ADC_A_E),
     (16, 0x8CDD, .adc_A_IXH), (16, 0x8DDD, .adc_A_IXL), (24, 0x858EDD, .adc_A_atIXd 0x85),
     (16, 0x8FDD, .ddIgnored_ADC_A_A)]] := by rfl

theorem test_words_dd_3 : Read [
    [(16, 0x90DD, .ddIgnored_SUB_B), (16, 0x91DD, .ddIgnored_SUB_C), (16, 0x92DD, .ddIgnored_SUB_D),
     (16, 0x93DD, .ddIgnored_SUB_E), (16, 0x94DD, .sub_IXH), (16, 0x95DD, .sub_IXL), (24, 0x8596DD, .sub_atIXd 0x85),
     (16, 0x97DD, .ddIgnored_SUB_A), (16, 0x98DD, .ddIgnored_SBC_A_B), (16, 0x99DD, .ddIgnored_SBC_A_C),
     (16, 0x9ADD, .ddIgnored_SBC_A_D), (16, 0x9BDD, .ddIgnored_SBC_A_E), (16, 0x9CDD, .sbc_A_IXH),
     (16, 0x9DDD, .sbc_A_IXL), (24, 0x859EDD, .sbc_A_atIXd 0x85), (16, 0x9FDD, .ddIgnored_SBC_A_A)],
    [(16, 0xA0DD, .ddIgnored_AND_B), (16, 0xA1DD, .ddIgnored_AND_C), (16, 0xA2DD, .ddIgnored_AND_D),
     (16, 0xA3DD, .ddIgnored_AND_E), (16, 0xA4DD, .and_IXH), (16, 0xA5DD, .and_IXL), (24, 0x85A6DD, .and_atIXd 0x85),
     (16, 0xA7DD, .ddIgnored_AND_A), (16, 0xA8DD, .ddIgnored_XOR_B), (16, 0xA9DD, .ddIgnored_XOR_C),
     (16, 0xAADD, .ddIgnored_XOR_D), (16, 0xABDD, .ddIgnored_XOR_E), (16, 0xACDD, .xor_IXH), (16, 0xADDD, .xor_IXL),
     (24, 0x85AEDD, .xor_atIXd 0x85), (16, 0xAFDD, .ddIgnored_XOR_A)],
    [(16, 0xB0DD, .ddIgnored_OR_B), (16, 0xB1DD, .ddIgnored_OR_C), (16, 0xB2DD, .ddIgnored_OR_D),
     (16, 0xB3DD, .ddIgnored_OR_E), (16, 0xB4DD, .or_IXH), (16, 0xB5DD, .or_IXL), (24, 0x85B6DD, .or_atIXd 0x85),
     (16, 0xB7DD, .ddIgnored_OR_A), (16, 0xB8DD, .ddIgnored_CP_B), (16, 0xB9DD, .ddIgnored_CP_C),
     (16, 0xBADD, .ddIgnored_CP_D), (16, 0xBBDD, .ddIgnored_CP_E), (16, 0xBCDD, .cp_IXH), (16, 0xBDDD, .cp_IXL),
     (24, 0x85BEDD, .cp_atIXd 0x85), (16, 0xBFDD, .ddIgnored_CP_A)]] := by rfl

theorem test_words_dd_4 : Read [
    [(16, 0xC0DD, .ddIgnored_RET_NZ), (16, 0xC1DD, .ddIgnored_POP_BC), (16, 0xC2DD, .ddIgnored_JP_NZ_nn),
     (16, 0xC3DD, .ddIgnored_JP_nn), (16, 0xC4DD, .ddIgnored_CALL_NZ_nn), (16, 0xC5DD, .ddIgnored_PUSH_BC),
     (16, 0xC6DD, .ddIgnored_ADD_A_n), (16, 0xC7DD, .ddIgnored_RST_00H), (16, 0xC8DD, .ddIgnored_RET_Z),
     (16, 0xC9DD, .ddIgnored_RET), (16, 0xCADD, .ddIgnored_JP_Z_nn), (16, 0xCCDD, .ddIgnored_CALL_Z_nn),
     (16, 0xCDDD, .ddIgnored_CALL_nn), (16, 0xCEDD, .ddIgnored_ADC_A_n), (16, 0xCFDD, .ddIgnored_RST_08H),
     (16, 0xD0DD, .ddIgnored_RET_NC)],
    [(16, 0xD1DD, .ddIgnored_POP_DE), (16, 0xD2DD, .ddIgnored_JP_NC_nn), (16, 0xD3DD, .ddIgnored_OUT_atn_A),
     (16, 0xD4DD, .ddIgnored_CALL_NC_nn), (16, 0xD5DD, .ddIgnored_PUSH_DE), (16, 0xD6DD, .ddIgnored_SUB_n),
     (16, 0xD7DD, .ddIgnored_RST_10H), (16, 0xD8DD, .ddIgnored_RET_C), (16, 0xD9DD, .ddIgnored_EXX),
     (16, 0xDADD, .ddIgnored_JP_C_nn), (16, 0xDBDD, .ddIgnored_IN_A_atn), (16, 0xDCDD, .ddIgnored_CALL_C_nn),
     (16, 0xDDDD, .ddIgnored_prefix_DD), (16, 0xDEDD, .ddIgnored_SBC_A_n), (16, 0xDFDD, .ddIgnored_RST_18H),
     (16, 0xE0DD, .ddIgnored_RET_PO)],
    [(16, 0xE1DD, .pop_IX), (16, 0xE2DD, .ddIgnored_JP_PO_nn), (16, 0xE3DD, .ex_atSP_IX),
     (16, 0xE4DD, .ddIgnored_CALL_PO_nn), (16, 0xE5DD, .push_IX), (16, 0xE6DD, .ddIgnored_AND_n),
     (16, 0xE7DD, .ddIgnored_RST_20H), (16, 0xE8DD, .ddIgnored_RET_PE), (16, 0xE9DD, .jp_atIX),
     (16, 0xEADD, .ddIgnored_JP_PE_nn), (16, 0xEBDD, .ddIgnored_EX_DE_HL), (16, 0xECDD, .ddIgnored_CALL_PE_nn),
     (16, 0xEDDD, .ddIgnored_ED_page), (16, 0xEEDD, .ddIgnored_XOR_n), (16, 0xEFDD, .ddIgnored_RST_28H),
     (16, 0xF0DD, .ddIgnored_RET_P)]] := by rfl

theorem test_words_dd_5 : Read [
    [(16, 0xF1DD, .ddIgnored_POP_AF), (16, 0xF2DD, .ddIgnored_JP_P_nn), (16, 0xF3DD, .ddIgnored_DI),
     (16, 0xF4DD, .ddIgnored_CALL_P_nn), (16, 0xF5DD, .ddIgnored_PUSH_AF), (16, 0xF6DD, .ddIgnored_OR_n),
     (16, 0xF7DD, .ddIgnored_RST_30H), (16, 0xF8DD, .ddIgnored_RET_M), (16, 0xF9DD, .ld_SP_IX),
     (16, 0xFADD, .ddIgnored_JP_M_nn), (16, 0xFBDD, .ddIgnored_EI), (16, 0xFCDD, .ddIgnored_CALL_M_nn),
     (16, 0xFDDD, .ddIgnored_prefix_FD), (16, 0xFEDD, .ddIgnored_CP_n), (16, 0xFFDD, .ddIgnored_RST_38H)]] := by rfl

theorem test_words_ddcb_0 : Read [
    [(32, 0x0085CBDD, .rlc_atIXd_B 0x85), (32, 0x0185CBDD, .rlc_atIXd_C 0x85), (32, 0x0285CBDD, .rlc_atIXd_D 0x85),
     (32, 0x0385CBDD, .rlc_atIXd_E 0x85), (32, 0x0485CBDD, .rlc_atIXd_H 0x85), (32, 0x0585CBDD, .rlc_atIXd_L 0x85),
     (32, 0x0685CBDD, .rlc_atIXd 0x85), (32, 0x0785CBDD, .rlc_atIXd_A 0x85), (32, 0x0885CBDD, .rrc_atIXd_B 0x85),
     (32, 0x0985CBDD, .rrc_atIXd_C 0x85), (32, 0x0A85CBDD, .rrc_atIXd_D 0x85), (32, 0x0B85CBDD, .rrc_atIXd_E 0x85),
     (32, 0x0C85CBDD, .rrc_atIXd_H 0x85), (32, 0x0D85CBDD, .rrc_atIXd_L 0x85), (32, 0x0E85CBDD, .rrc_atIXd 0x85),
     (32, 0x0F85CBDD, .rrc_atIXd_A 0x85)],
    [(32, 0x1085CBDD, .rl_atIXd_B 0x85), (32, 0x1185CBDD, .rl_atIXd_C 0x85), (32, 0x1285CBDD, .rl_atIXd_D 0x85),
     (32, 0x1385CBDD, .rl_atIXd_E 0x85), (32, 0x1485CBDD, .rl_atIXd_H 0x85), (32, 0x1585CBDD, .rl_atIXd_L 0x85),
     (32, 0x1685CBDD, .rl_atIXd 0x85), (32, 0x1785CBDD, .rl_atIXd_A 0x85), (32, 0x1885CBDD, .rr_atIXd_B 0x85),
     (32, 0x1985CBDD, .rr_atIXd_C 0x85), (32, 0x1A85CBDD, .rr_atIXd_D 0x85), (32, 0x1B85CBDD, .rr_atIXd_E 0x85),
     (32, 0x1C85CBDD, .rr_atIXd_H 0x85), (32, 0x1D85CBDD, .rr_atIXd_L 0x85), (32, 0x1E85CBDD, .rr_atIXd 0x85),
     (32, 0x1F85CBDD, .rr_atIXd_A 0x85)],
    [(32, 0x2085CBDD, .sla_atIXd_B 0x85), (32, 0x2185CBDD, .sla_atIXd_C 0x85), (32, 0x2285CBDD, .sla_atIXd_D 0x85),
     (32, 0x2385CBDD, .sla_atIXd_E 0x85), (32, 0x2485CBDD, .sla_atIXd_H 0x85), (32, 0x2585CBDD, .sla_atIXd_L 0x85),
     (32, 0x2685CBDD, .sla_atIXd 0x85), (32, 0x2785CBDD, .sla_atIXd_A 0x85), (32, 0x2885CBDD, .sra_atIXd_B 0x85),
     (32, 0x2985CBDD, .sra_atIXd_C 0x85), (32, 0x2A85CBDD, .sra_atIXd_D 0x85), (32, 0x2B85CBDD, .sra_atIXd_E 0x85),
     (32, 0x2C85CBDD, .sra_atIXd_H 0x85), (32, 0x2D85CBDD, .sra_atIXd_L 0x85), (32, 0x2E85CBDD, .sra_atIXd 0x85),
     (32, 0x2F85CBDD, .sra_atIXd_A 0x85)]] := by rfl

theorem test_words_ddcb_1 : Read [
    [(32, 0x3085CBDD, .sll_atIXd_B 0x85), (32, 0x3185CBDD, .sll_atIXd_C 0x85), (32, 0x3285CBDD, .sll_atIXd_D 0x85),
     (32, 0x3385CBDD, .sll_atIXd_E 0x85), (32, 0x3485CBDD, .sll_atIXd_H 0x85), (32, 0x3585CBDD, .sll_atIXd_L 0x85),
     (32, 0x3685CBDD, .sll_atIXd 0x85), (32, 0x3785CBDD, .sll_atIXd_A 0x85), (32, 0x3885CBDD, .srl_atIXd_B 0x85),
     (32, 0x3985CBDD, .srl_atIXd_C 0x85), (32, 0x3A85CBDD, .srl_atIXd_D 0x85), (32, 0x3B85CBDD, .srl_atIXd_E 0x85),
     (32, 0x3C85CBDD, .srl_atIXd_H 0x85), (32, 0x3D85CBDD, .srl_atIXd_L 0x85), (32, 0x3E85CBDD, .srl_atIXd 0x85),
     (32, 0x3F85CBDD, .srl_atIXd_A 0x85)],
    [(32, 0x4085CBDD, .bit_0_atIXd 0x85 0), (32, 0x4885CBDD, .bit_1_atIXd 0x85 0),
     (32, 0x5085CBDD, .bit_2_atIXd 0x85 0), (32, 0x5885CBDD, .bit_3_atIXd 0x85 0),
     (32, 0x6085CBDD, .bit_4_atIXd 0x85 0), (32, 0x6885CBDD, .bit_5_atIXd 0x85 0),
     (32, 0x7085CBDD, .bit_6_atIXd 0x85 0), (32, 0x7885CBDD, .bit_7_atIXd 0x85 0),
     (32, 0x8085CBDD, .res_0_atIXd_B 0x85), (32, 0x8185CBDD, .res_0_atIXd_C 0x85),
     (32, 0x8285CBDD, .res_0_atIXd_D 0x85), (32, 0x8385CBDD, .res_0_atIXd_E 0x85),
     (32, 0x8485CBDD, .res_0_atIXd_H 0x85), (32, 0x8585CBDD, .res_0_atIXd_L 0x85),
     (32, 0x8685CBDD, .res_0_atIXd 0x85), (32, 0x8785CBDD, .res_0_atIXd_A 0x85)],
    [(32, 0x8885CBDD, .res_1_atIXd_B 0x85), (32, 0x8985CBDD, .res_1_atIXd_C 0x85),
     (32, 0x8A85CBDD, .res_1_atIXd_D 0x85), (32, 0x8B85CBDD, .res_1_atIXd_E 0x85),
     (32, 0x8C85CBDD, .res_1_atIXd_H 0x85), (32, 0x8D85CBDD, .res_1_atIXd_L 0x85),
     (32, 0x8E85CBDD, .res_1_atIXd 0x85), (32, 0x8F85CBDD, .res_1_atIXd_A 0x85),
     (32, 0x9085CBDD, .res_2_atIXd_B 0x85), (32, 0x9185CBDD, .res_2_atIXd_C 0x85),
     (32, 0x9285CBDD, .res_2_atIXd_D 0x85), (32, 0x9385CBDD, .res_2_atIXd_E 0x85),
     (32, 0x9485CBDD, .res_2_atIXd_H 0x85), (32, 0x9585CBDD, .res_2_atIXd_L 0x85),
     (32, 0x9685CBDD, .res_2_atIXd 0x85), (32, 0x9785CBDD, .res_2_atIXd_A 0x85)]] := by rfl

theorem test_words_ddcb_2 : Read [
    [(32, 0x9885CBDD, .res_3_atIXd_B 0x85), (32, 0x9985CBDD, .res_3_atIXd_C 0x85),
     (32, 0x9A85CBDD, .res_3_atIXd_D 0x85), (32, 0x9B85CBDD, .res_3_atIXd_E 0x85),
     (32, 0x9C85CBDD, .res_3_atIXd_H 0x85), (32, 0x9D85CBDD, .res_3_atIXd_L 0x85),
     (32, 0x9E85CBDD, .res_3_atIXd 0x85), (32, 0x9F85CBDD, .res_3_atIXd_A 0x85),
     (32, 0xA085CBDD, .res_4_atIXd_B 0x85), (32, 0xA185CBDD, .res_4_atIXd_C 0x85),
     (32, 0xA285CBDD, .res_4_atIXd_D 0x85), (32, 0xA385CBDD, .res_4_atIXd_E 0x85),
     (32, 0xA485CBDD, .res_4_atIXd_H 0x85), (32, 0xA585CBDD, .res_4_atIXd_L 0x85),
     (32, 0xA685CBDD, .res_4_atIXd 0x85), (32, 0xA785CBDD, .res_4_atIXd_A 0x85)],
    [(32, 0xA885CBDD, .res_5_atIXd_B 0x85), (32, 0xA985CBDD, .res_5_atIXd_C 0x85),
     (32, 0xAA85CBDD, .res_5_atIXd_D 0x85), (32, 0xAB85CBDD, .res_5_atIXd_E 0x85),
     (32, 0xAC85CBDD, .res_5_atIXd_H 0x85), (32, 0xAD85CBDD, .res_5_atIXd_L 0x85),
     (32, 0xAE85CBDD, .res_5_atIXd 0x85), (32, 0xAF85CBDD, .res_5_atIXd_A 0x85),
     (32, 0xB085CBDD, .res_6_atIXd_B 0x85), (32, 0xB185CBDD, .res_6_atIXd_C 0x85),
     (32, 0xB285CBDD, .res_6_atIXd_D 0x85), (32, 0xB385CBDD, .res_6_atIXd_E 0x85),
     (32, 0xB485CBDD, .res_6_atIXd_H 0x85), (32, 0xB585CBDD, .res_6_atIXd_L 0x85),
     (32, 0xB685CBDD, .res_6_atIXd 0x85), (32, 0xB785CBDD, .res_6_atIXd_A 0x85)],
    [(32, 0xB885CBDD, .res_7_atIXd_B 0x85), (32, 0xB985CBDD, .res_7_atIXd_C 0x85),
     (32, 0xBA85CBDD, .res_7_atIXd_D 0x85), (32, 0xBB85CBDD, .res_7_atIXd_E 0x85),
     (32, 0xBC85CBDD, .res_7_atIXd_H 0x85), (32, 0xBD85CBDD, .res_7_atIXd_L 0x85),
     (32, 0xBE85CBDD, .res_7_atIXd 0x85), (32, 0xBF85CBDD, .res_7_atIXd_A 0x85),
     (32, 0xC085CBDD, .set_0_atIXd_B 0x85), (32, 0xC185CBDD, .set_0_atIXd_C 0x85),
     (32, 0xC285CBDD, .set_0_atIXd_D 0x85), (32, 0xC385CBDD, .set_0_atIXd_E 0x85),
     (32, 0xC485CBDD, .set_0_atIXd_H 0x85), (32, 0xC585CBDD, .set_0_atIXd_L 0x85),
     (32, 0xC685CBDD, .set_0_atIXd 0x85), (32, 0xC785CBDD, .set_0_atIXd_A 0x85)]] := by rfl

theorem test_words_ddcb_3 : Read [
    [(32, 0xC885CBDD, .set_1_atIXd_B 0x85), (32, 0xC985CBDD, .set_1_atIXd_C 0x85),
     (32, 0xCA85CBDD, .set_1_atIXd_D 0x85), (32, 0xCB85CBDD, .set_1_atIXd_E 0x85),
     (32, 0xCC85CBDD, .set_1_atIXd_H 0x85), (32, 0xCD85CBDD, .set_1_atIXd_L 0x85),
     (32, 0xCE85CBDD, .set_1_atIXd 0x85), (32, 0xCF85CBDD, .set_1_atIXd_A 0x85),
     (32, 0xD085CBDD, .set_2_atIXd_B 0x85), (32, 0xD185CBDD, .set_2_atIXd_C 0x85),
     (32, 0xD285CBDD, .set_2_atIXd_D 0x85), (32, 0xD385CBDD, .set_2_atIXd_E 0x85),
     (32, 0xD485CBDD, .set_2_atIXd_H 0x85), (32, 0xD585CBDD, .set_2_atIXd_L 0x85),
     (32, 0xD685CBDD, .set_2_atIXd 0x85), (32, 0xD785CBDD, .set_2_atIXd_A 0x85)],
    [(32, 0xD885CBDD, .set_3_atIXd_B 0x85), (32, 0xD985CBDD, .set_3_atIXd_C 0x85),
     (32, 0xDA85CBDD, .set_3_atIXd_D 0x85), (32, 0xDB85CBDD, .set_3_atIXd_E 0x85),
     (32, 0xDC85CBDD, .set_3_atIXd_H 0x85), (32, 0xDD85CBDD, .set_3_atIXd_L 0x85),
     (32, 0xDE85CBDD, .set_3_atIXd 0x85), (32, 0xDF85CBDD, .set_3_atIXd_A 0x85),
     (32, 0xE085CBDD, .set_4_atIXd_B 0x85), (32, 0xE185CBDD, .set_4_atIXd_C 0x85),
     (32, 0xE285CBDD, .set_4_atIXd_D 0x85), (32, 0xE385CBDD, .set_4_atIXd_E 0x85),
     (32, 0xE485CBDD, .set_4_atIXd_H 0x85), (32, 0xE585CBDD, .set_4_atIXd_L 0x85),
     (32, 0xE685CBDD, .set_4_atIXd 0x85), (32, 0xE785CBDD, .set_4_atIXd_A 0x85)],
    [(32, 0xE885CBDD, .set_5_atIXd_B 0x85), (32, 0xE985CBDD, .set_5_atIXd_C 0x85),
     (32, 0xEA85CBDD, .set_5_atIXd_D 0x85), (32, 0xEB85CBDD, .set_5_atIXd_E 0x85),
     (32, 0xEC85CBDD, .set_5_atIXd_H 0x85), (32, 0xED85CBDD, .set_5_atIXd_L 0x85),
     (32, 0xEE85CBDD, .set_5_atIXd 0x85), (32, 0xEF85CBDD, .set_5_atIXd_A 0x85),
     (32, 0xF085CBDD, .set_6_atIXd_B 0x85), (32, 0xF185CBDD, .set_6_atIXd_C 0x85),
     (32, 0xF285CBDD, .set_6_atIXd_D 0x85), (32, 0xF385CBDD, .set_6_atIXd_E 0x85),
     (32, 0xF485CBDD, .set_6_atIXd_H 0x85), (32, 0xF585CBDD, .set_6_atIXd_L 0x85),
     (32, 0xF685CBDD, .set_6_atIXd 0x85), (32, 0xF785CBDD, .set_6_atIXd_A 0x85)]] := by rfl

theorem test_words_ddcb_4 : Read [
    [(32, 0xF885CBDD, .set_7_atIXd_B 0x85), (32, 0xF985CBDD, .set_7_atIXd_C 0x85),
     (32, 0xFA85CBDD, .set_7_atIXd_D 0x85), (32, 0xFB85CBDD, .set_7_atIXd_E 0x85),
     (32, 0xFC85CBDD, .set_7_atIXd_H 0x85), (32, 0xFD85CBDD, .set_7_atIXd_L 0x85),
     (32, 0xFE85CBDD, .set_7_atIXd 0x85), (32, 0xFF85CBDD, .set_7_atIXd_A 0x85)]] := by rfl

theorem test_words_fd_0 : Read [
    [(16, 0x00FD, .fdIgnored_NOP), (16, 0x01FD, .fdIgnored_LD_BC_nn), (16, 0x02FD, .fdIgnored_LD_atBC_A),
     (16, 0x03FD, .fdIgnored_INC_BC), (16, 0x04FD, .fdIgnored_INC_B), (16, 0x05FD, .fdIgnored_DEC_B),
     (16, 0x06FD, .fdIgnored_LD_B_n), (16, 0x07FD, .fdIgnored_RLCA), (16, 0x08FD, .fdIgnored_EX_AF_AF),
     (16, 0x09FD, .add_IY_BC), (16, 0x0AFD, .fdIgnored_LD_A_atBC), (16, 0x0BFD, .fdIgnored_DEC_BC),
     (16, 0x0CFD, .fdIgnored_INC_C), (16, 0x0DFD, .fdIgnored_DEC_C), (16, 0x0EFD, .fdIgnored_LD_C_n),
     (16, 0x0FFD, .fdIgnored_RRCA)],
    [(16, 0x10FD, .fdIgnored_DJNZ_e), (16, 0x11FD, .fdIgnored_LD_DE_nn), (16, 0x12FD, .fdIgnored_LD_atDE_A),
     (16, 0x13FD, .fdIgnored_INC_DE), (16, 0x14FD, .fdIgnored_INC_D), (16, 0x15FD, .fdIgnored_DEC_D),
     (16, 0x16FD, .fdIgnored_LD_D_n), (16, 0x17FD, .fdIgnored_RLA), (16, 0x18FD, .fdIgnored_JR_e),
     (16, 0x19FD, .add_IY_DE), (16, 0x1AFD, .fdIgnored_LD_A_atDE), (16, 0x1BFD, .fdIgnored_DEC_DE),
     (16, 0x1CFD, .fdIgnored_INC_E), (16, 0x1DFD, .fdIgnored_DEC_E), (16, 0x1EFD, .fdIgnored_LD_E_n),
     (16, 0x1FFD, .fdIgnored_RRA)],
    [(16, 0x20FD, .fdIgnored_JR_NZ_e), (32, 0x123421FD, .ld_IY_nn 0x1234), (32, 0x123422FD, .ld_atnn_IY 0x1234),
     (16, 0x23FD, .inc_IY), (16, 0x24FD, .inc_IYH), (16, 0x25FD, .dec_IYH), (24, 0x9926FD, .ld_IYH_n 0x99),
     (16, 0x27FD, .fdIgnored_DAA), (16, 0x28FD, .fdIgnored_JR_Z_e), (16, 0x29FD, .add_IY_IY),
     (32, 0x12342AFD, .ld_IY_atnn 0x1234), (16, 0x2BFD, .dec_IY), (16, 0x2CFD, .inc_IYL), (16, 0x2DFD, .dec_IYL),
     (24, 0x992EFD, .ld_IYL_n 0x99), (16, 0x2FFD, .fdIgnored_CPL)]] := by rfl

theorem test_words_fd_1 : Read [
    [(16, 0x30FD, .fdIgnored_JR_NC_e), (16, 0x31FD, .fdIgnored_LD_SP_nn), (16, 0x32FD, .fdIgnored_LD_atnn_A),
     (16, 0x33FD, .fdIgnored_INC_SP), (24, 0x8534FD, .inc_atIYd 0x85), (24, 0x8535FD, .dec_atIYd 0x85),
     (32, 0x998536FD, .ld_atIYd_n 0x85 0x99), (16, 0x37FD, .fdIgnored_SCF), (16, 0x38FD, .fdIgnored_JR_C_e),
     (16, 0x39FD, .add_IY_SP), (16, 0x3AFD, .fdIgnored_LD_A_atnn), (16, 0x3BFD, .fdIgnored_DEC_SP),
     (16, 0x3CFD, .fdIgnored_INC_A), (16, 0x3DFD, .fdIgnored_DEC_A), (16, 0x3EFD, .fdIgnored_LD_A_n),
     (16, 0x3FFD, .fdIgnored_CCF)],
    [(16, 0x40FD, .fdIgnored_LD_B_B), (16, 0x41FD, .fdIgnored_LD_B_C), (16, 0x42FD, .fdIgnored_LD_B_D),
     (16, 0x43FD, .fdIgnored_LD_B_E), (16, 0x44FD, .ld_B_IYH), (16, 0x45FD, .ld_B_IYL),
     (24, 0x8546FD, .ld_B_atIYd 0x85), (16, 0x47FD, .fdIgnored_LD_B_A), (16, 0x48FD, .fdIgnored_LD_C_B),
     (16, 0x49FD, .fdIgnored_LD_C_C), (16, 0x4AFD, .fdIgnored_LD_C_D), (16, 0x4BFD, .fdIgnored_LD_C_E),
     (16, 0x4CFD, .ld_C_IYH), (16, 0x4DFD, .ld_C_IYL), (24, 0x854EFD, .ld_C_atIYd 0x85),
     (16, 0x4FFD, .fdIgnored_LD_C_A)],
    [(16, 0x50FD, .fdIgnored_LD_D_B), (16, 0x51FD, .fdIgnored_LD_D_C), (16, 0x52FD, .fdIgnored_LD_D_D),
     (16, 0x53FD, .fdIgnored_LD_D_E), (16, 0x54FD, .ld_D_IYH), (16, 0x55FD, .ld_D_IYL),
     (24, 0x8556FD, .ld_D_atIYd 0x85), (16, 0x57FD, .fdIgnored_LD_D_A), (16, 0x58FD, .fdIgnored_LD_E_B),
     (16, 0x59FD, .fdIgnored_LD_E_C), (16, 0x5AFD, .fdIgnored_LD_E_D), (16, 0x5BFD, .fdIgnored_LD_E_E),
     (16, 0x5CFD, .ld_E_IYH), (16, 0x5DFD, .ld_E_IYL), (24, 0x855EFD, .ld_E_atIYd 0x85),
     (16, 0x5FFD, .fdIgnored_LD_E_A)]] := by rfl

theorem test_words_fd_2 : Read [
    [(16, 0x60FD, .ld_IYH_B), (16, 0x61FD, .ld_IYH_C), (16, 0x62FD, .ld_IYH_D), (16, 0x63FD, .ld_IYH_E),
     (16, 0x64FD, .ld_IYH_IYH), (16, 0x65FD, .ld_IYH_IYL), (24, 0x8566FD, .ld_H_atIYd 0x85), (16, 0x67FD, .ld_IYH_A),
     (16, 0x68FD, .ld_IYL_B), (16, 0x69FD, .ld_IYL_C), (16, 0x6AFD, .ld_IYL_D), (16, 0x6BFD, .ld_IYL_E),
     (16, 0x6CFD, .ld_IYL_IYH), (16, 0x6DFD, .ld_IYL_IYL), (24, 0x856EFD, .ld_L_atIYd 0x85), (16, 0x6FFD, .ld_IYL_A)],
    [(24, 0x8570FD, .ld_atIYd_B 0x85), (24, 0x8571FD, .ld_atIYd_C 0x85), (24, 0x8572FD, .ld_atIYd_D 0x85),
     (24, 0x8573FD, .ld_atIYd_E 0x85), (24, 0x8574FD, .ld_atIYd_H 0x85), (24, 0x8575FD, .ld_atIYd_L 0x85),
     (16, 0x76FD, .fdIgnored_HALT), (24, 0x8577FD, .ld_atIYd_A 0x85), (16, 0x78FD, .fdIgnored_LD_A_B),
     (16, 0x79FD, .fdIgnored_LD_A_C), (16, 0x7AFD, .fdIgnored_LD_A_D), (16, 0x7BFD, .fdIgnored_LD_A_E),
     (16, 0x7CFD, .ld_A_IYH), (16, 0x7DFD, .ld_A_IYL), (24, 0x857EFD, .ld_A_atIYd 0x85),
     (16, 0x7FFD, .fdIgnored_LD_A_A)],
    [(16, 0x80FD, .fdIgnored_ADD_A_B), (16, 0x81FD, .fdIgnored_ADD_A_C), (16, 0x82FD, .fdIgnored_ADD_A_D),
     (16, 0x83FD, .fdIgnored_ADD_A_E), (16, 0x84FD, .add_A_IYH), (16, 0x85FD, .add_A_IYL),
     (24, 0x8586FD, .add_A_atIYd 0x85), (16, 0x87FD, .fdIgnored_ADD_A_A), (16, 0x88FD, .fdIgnored_ADC_A_B),
     (16, 0x89FD, .fdIgnored_ADC_A_C), (16, 0x8AFD, .fdIgnored_ADC_A_D), (16, 0x8BFD, .fdIgnored_ADC_A_E),
     (16, 0x8CFD, .adc_A_IYH), (16, 0x8DFD, .adc_A_IYL), (24, 0x858EFD, .adc_A_atIYd 0x85),
     (16, 0x8FFD, .fdIgnored_ADC_A_A)]] := by rfl

theorem test_words_fd_3 : Read [
    [(16, 0x90FD, .fdIgnored_SUB_B), (16, 0x91FD, .fdIgnored_SUB_C), (16, 0x92FD, .fdIgnored_SUB_D),
     (16, 0x93FD, .fdIgnored_SUB_E), (16, 0x94FD, .sub_IYH), (16, 0x95FD, .sub_IYL), (24, 0x8596FD, .sub_atIYd 0x85),
     (16, 0x97FD, .fdIgnored_SUB_A), (16, 0x98FD, .fdIgnored_SBC_A_B), (16, 0x99FD, .fdIgnored_SBC_A_C),
     (16, 0x9AFD, .fdIgnored_SBC_A_D), (16, 0x9BFD, .fdIgnored_SBC_A_E), (16, 0x9CFD, .sbc_A_IYH),
     (16, 0x9DFD, .sbc_A_IYL), (24, 0x859EFD, .sbc_A_atIYd 0x85), (16, 0x9FFD, .fdIgnored_SBC_A_A)],
    [(16, 0xA0FD, .fdIgnored_AND_B), (16, 0xA1FD, .fdIgnored_AND_C), (16, 0xA2FD, .fdIgnored_AND_D),
     (16, 0xA3FD, .fdIgnored_AND_E), (16, 0xA4FD, .and_IYH), (16, 0xA5FD, .and_IYL), (24, 0x85A6FD, .and_atIYd 0x85),
     (16, 0xA7FD, .fdIgnored_AND_A), (16, 0xA8FD, .fdIgnored_XOR_B), (16, 0xA9FD, .fdIgnored_XOR_C),
     (16, 0xAAFD, .fdIgnored_XOR_D), (16, 0xABFD, .fdIgnored_XOR_E), (16, 0xACFD, .xor_IYH), (16, 0xADFD, .xor_IYL),
     (24, 0x85AEFD, .xor_atIYd 0x85), (16, 0xAFFD, .fdIgnored_XOR_A)],
    [(16, 0xB0FD, .fdIgnored_OR_B), (16, 0xB1FD, .fdIgnored_OR_C), (16, 0xB2FD, .fdIgnored_OR_D),
     (16, 0xB3FD, .fdIgnored_OR_E), (16, 0xB4FD, .or_IYH), (16, 0xB5FD, .or_IYL), (24, 0x85B6FD, .or_atIYd 0x85),
     (16, 0xB7FD, .fdIgnored_OR_A), (16, 0xB8FD, .fdIgnored_CP_B), (16, 0xB9FD, .fdIgnored_CP_C),
     (16, 0xBAFD, .fdIgnored_CP_D), (16, 0xBBFD, .fdIgnored_CP_E), (16, 0xBCFD, .cp_IYH), (16, 0xBDFD, .cp_IYL),
     (24, 0x85BEFD, .cp_atIYd 0x85), (16, 0xBFFD, .fdIgnored_CP_A)]] := by rfl

theorem test_words_fd_4 : Read [
    [(16, 0xC0FD, .fdIgnored_RET_NZ), (16, 0xC1FD, .fdIgnored_POP_BC), (16, 0xC2FD, .fdIgnored_JP_NZ_nn),
     (16, 0xC3FD, .fdIgnored_JP_nn), (16, 0xC4FD, .fdIgnored_CALL_NZ_nn), (16, 0xC5FD, .fdIgnored_PUSH_BC),
     (16, 0xC6FD, .fdIgnored_ADD_A_n), (16, 0xC7FD, .fdIgnored_RST_00H), (16, 0xC8FD, .fdIgnored_RET_Z),
     (16, 0xC9FD, .fdIgnored_RET), (16, 0xCAFD, .fdIgnored_JP_Z_nn), (16, 0xCCFD, .fdIgnored_CALL_Z_nn),
     (16, 0xCDFD, .fdIgnored_CALL_nn), (16, 0xCEFD, .fdIgnored_ADC_A_n), (16, 0xCFFD, .fdIgnored_RST_08H),
     (16, 0xD0FD, .fdIgnored_RET_NC)],
    [(16, 0xD1FD, .fdIgnored_POP_DE), (16, 0xD2FD, .fdIgnored_JP_NC_nn), (16, 0xD3FD, .fdIgnored_OUT_atn_A),
     (16, 0xD4FD, .fdIgnored_CALL_NC_nn), (16, 0xD5FD, .fdIgnored_PUSH_DE), (16, 0xD6FD, .fdIgnored_SUB_n),
     (16, 0xD7FD, .fdIgnored_RST_10H), (16, 0xD8FD, .fdIgnored_RET_C), (16, 0xD9FD, .fdIgnored_EXX),
     (16, 0xDAFD, .fdIgnored_JP_C_nn), (16, 0xDBFD, .fdIgnored_IN_A_atn), (16, 0xDCFD, .fdIgnored_CALL_C_nn),
     (16, 0xDDFD, .fdIgnored_prefix_DD), (16, 0xDEFD, .fdIgnored_SBC_A_n), (16, 0xDFFD, .fdIgnored_RST_18H),
     (16, 0xE0FD, .fdIgnored_RET_PO)],
    [(16, 0xE1FD, .pop_IY), (16, 0xE2FD, .fdIgnored_JP_PO_nn), (16, 0xE3FD, .ex_atSP_IY),
     (16, 0xE4FD, .fdIgnored_CALL_PO_nn), (16, 0xE5FD, .push_IY), (16, 0xE6FD, .fdIgnored_AND_n),
     (16, 0xE7FD, .fdIgnored_RST_20H), (16, 0xE8FD, .fdIgnored_RET_PE), (16, 0xE9FD, .jp_atIY),
     (16, 0xEAFD, .fdIgnored_JP_PE_nn), (16, 0xEBFD, .fdIgnored_EX_DE_HL), (16, 0xECFD, .fdIgnored_CALL_PE_nn),
     (16, 0xEDFD, .fdIgnored_ED_page), (16, 0xEEFD, .fdIgnored_XOR_n), (16, 0xEFFD, .fdIgnored_RST_28H),
     (16, 0xF0FD, .fdIgnored_RET_P)]] := by rfl

theorem test_words_fd_5 : Read [
    [(16, 0xF1FD, .fdIgnored_POP_AF), (16, 0xF2FD, .fdIgnored_JP_P_nn), (16, 0xF3FD, .fdIgnored_DI),
     (16, 0xF4FD, .fdIgnored_CALL_P_nn), (16, 0xF5FD, .fdIgnored_PUSH_AF), (16, 0xF6FD, .fdIgnored_OR_n),
     (16, 0xF7FD, .fdIgnored_RST_30H), (16, 0xF8FD, .fdIgnored_RET_M), (16, 0xF9FD, .ld_SP_IY),
     (16, 0xFAFD, .fdIgnored_JP_M_nn), (16, 0xFBFD, .fdIgnored_EI), (16, 0xFCFD, .fdIgnored_CALL_M_nn),
     (16, 0xFDFD, .fdIgnored_prefix_FD), (16, 0xFEFD, .fdIgnored_CP_n), (16, 0xFFFD, .fdIgnored_RST_38H)]] := by rfl

theorem test_words_fdcb_0 : Read [
    [(32, 0x0085CBFD, .rlc_atIYd_B 0x85), (32, 0x0185CBFD, .rlc_atIYd_C 0x85), (32, 0x0285CBFD, .rlc_atIYd_D 0x85),
     (32, 0x0385CBFD, .rlc_atIYd_E 0x85), (32, 0x0485CBFD, .rlc_atIYd_H 0x85), (32, 0x0585CBFD, .rlc_atIYd_L 0x85),
     (32, 0x0685CBFD, .rlc_atIYd 0x85), (32, 0x0785CBFD, .rlc_atIYd_A 0x85), (32, 0x0885CBFD, .rrc_atIYd_B 0x85),
     (32, 0x0985CBFD, .rrc_atIYd_C 0x85), (32, 0x0A85CBFD, .rrc_atIYd_D 0x85), (32, 0x0B85CBFD, .rrc_atIYd_E 0x85),
     (32, 0x0C85CBFD, .rrc_atIYd_H 0x85), (32, 0x0D85CBFD, .rrc_atIYd_L 0x85), (32, 0x0E85CBFD, .rrc_atIYd 0x85),
     (32, 0x0F85CBFD, .rrc_atIYd_A 0x85)],
    [(32, 0x1085CBFD, .rl_atIYd_B 0x85), (32, 0x1185CBFD, .rl_atIYd_C 0x85), (32, 0x1285CBFD, .rl_atIYd_D 0x85),
     (32, 0x1385CBFD, .rl_atIYd_E 0x85), (32, 0x1485CBFD, .rl_atIYd_H 0x85), (32, 0x1585CBFD, .rl_atIYd_L 0x85),
     (32, 0x1685CBFD, .rl_atIYd 0x85), (32, 0x1785CBFD, .rl_atIYd_A 0x85), (32, 0x1885CBFD, .rr_atIYd_B 0x85),
     (32, 0x1985CBFD, .rr_atIYd_C 0x85), (32, 0x1A85CBFD, .rr_atIYd_D 0x85), (32, 0x1B85CBFD, .rr_atIYd_E 0x85),
     (32, 0x1C85CBFD, .rr_atIYd_H 0x85), (32, 0x1D85CBFD, .rr_atIYd_L 0x85), (32, 0x1E85CBFD, .rr_atIYd 0x85),
     (32, 0x1F85CBFD, .rr_atIYd_A 0x85)],
    [(32, 0x2085CBFD, .sla_atIYd_B 0x85), (32, 0x2185CBFD, .sla_atIYd_C 0x85), (32, 0x2285CBFD, .sla_atIYd_D 0x85),
     (32, 0x2385CBFD, .sla_atIYd_E 0x85), (32, 0x2485CBFD, .sla_atIYd_H 0x85), (32, 0x2585CBFD, .sla_atIYd_L 0x85),
     (32, 0x2685CBFD, .sla_atIYd 0x85), (32, 0x2785CBFD, .sla_atIYd_A 0x85), (32, 0x2885CBFD, .sra_atIYd_B 0x85),
     (32, 0x2985CBFD, .sra_atIYd_C 0x85), (32, 0x2A85CBFD, .sra_atIYd_D 0x85), (32, 0x2B85CBFD, .sra_atIYd_E 0x85),
     (32, 0x2C85CBFD, .sra_atIYd_H 0x85), (32, 0x2D85CBFD, .sra_atIYd_L 0x85), (32, 0x2E85CBFD, .sra_atIYd 0x85),
     (32, 0x2F85CBFD, .sra_atIYd_A 0x85)]] := by rfl

theorem test_words_fdcb_1 : Read [
    [(32, 0x3085CBFD, .sll_atIYd_B 0x85), (32, 0x3185CBFD, .sll_atIYd_C 0x85), (32, 0x3285CBFD, .sll_atIYd_D 0x85),
     (32, 0x3385CBFD, .sll_atIYd_E 0x85), (32, 0x3485CBFD, .sll_atIYd_H 0x85), (32, 0x3585CBFD, .sll_atIYd_L 0x85),
     (32, 0x3685CBFD, .sll_atIYd 0x85), (32, 0x3785CBFD, .sll_atIYd_A 0x85), (32, 0x3885CBFD, .srl_atIYd_B 0x85),
     (32, 0x3985CBFD, .srl_atIYd_C 0x85), (32, 0x3A85CBFD, .srl_atIYd_D 0x85), (32, 0x3B85CBFD, .srl_atIYd_E 0x85),
     (32, 0x3C85CBFD, .srl_atIYd_H 0x85), (32, 0x3D85CBFD, .srl_atIYd_L 0x85), (32, 0x3E85CBFD, .srl_atIYd 0x85),
     (32, 0x3F85CBFD, .srl_atIYd_A 0x85)],
    [(32, 0x4085CBFD, .bit_0_atIYd 0x85 0), (32, 0x4885CBFD, .bit_1_atIYd 0x85 0),
     (32, 0x5085CBFD, .bit_2_atIYd 0x85 0), (32, 0x5885CBFD, .bit_3_atIYd 0x85 0),
     (32, 0x6085CBFD, .bit_4_atIYd 0x85 0), (32, 0x6885CBFD, .bit_5_atIYd 0x85 0),
     (32, 0x7085CBFD, .bit_6_atIYd 0x85 0), (32, 0x7885CBFD, .bit_7_atIYd 0x85 0),
     (32, 0x8085CBFD, .res_0_atIYd_B 0x85), (32, 0x8185CBFD, .res_0_atIYd_C 0x85),
     (32, 0x8285CBFD, .res_0_atIYd_D 0x85), (32, 0x8385CBFD, .res_0_atIYd_E 0x85),
     (32, 0x8485CBFD, .res_0_atIYd_H 0x85), (32, 0x8585CBFD, .res_0_atIYd_L 0x85),
     (32, 0x8685CBFD, .res_0_atIYd 0x85), (32, 0x8785CBFD, .res_0_atIYd_A 0x85)],
    [(32, 0x8885CBFD, .res_1_atIYd_B 0x85), (32, 0x8985CBFD, .res_1_atIYd_C 0x85),
     (32, 0x8A85CBFD, .res_1_atIYd_D 0x85), (32, 0x8B85CBFD, .res_1_atIYd_E 0x85),
     (32, 0x8C85CBFD, .res_1_atIYd_H 0x85), (32, 0x8D85CBFD, .res_1_atIYd_L 0x85),
     (32, 0x8E85CBFD, .res_1_atIYd 0x85), (32, 0x8F85CBFD, .res_1_atIYd_A 0x85),
     (32, 0x9085CBFD, .res_2_atIYd_B 0x85), (32, 0x9185CBFD, .res_2_atIYd_C 0x85),
     (32, 0x9285CBFD, .res_2_atIYd_D 0x85), (32, 0x9385CBFD, .res_2_atIYd_E 0x85),
     (32, 0x9485CBFD, .res_2_atIYd_H 0x85), (32, 0x9585CBFD, .res_2_atIYd_L 0x85),
     (32, 0x9685CBFD, .res_2_atIYd 0x85), (32, 0x9785CBFD, .res_2_atIYd_A 0x85)]] := by rfl

theorem test_words_fdcb_2 : Read [
    [(32, 0x9885CBFD, .res_3_atIYd_B 0x85), (32, 0x9985CBFD, .res_3_atIYd_C 0x85),
     (32, 0x9A85CBFD, .res_3_atIYd_D 0x85), (32, 0x9B85CBFD, .res_3_atIYd_E 0x85),
     (32, 0x9C85CBFD, .res_3_atIYd_H 0x85), (32, 0x9D85CBFD, .res_3_atIYd_L 0x85),
     (32, 0x9E85CBFD, .res_3_atIYd 0x85), (32, 0x9F85CBFD, .res_3_atIYd_A 0x85),
     (32, 0xA085CBFD, .res_4_atIYd_B 0x85), (32, 0xA185CBFD, .res_4_atIYd_C 0x85),
     (32, 0xA285CBFD, .res_4_atIYd_D 0x85), (32, 0xA385CBFD, .res_4_atIYd_E 0x85),
     (32, 0xA485CBFD, .res_4_atIYd_H 0x85), (32, 0xA585CBFD, .res_4_atIYd_L 0x85),
     (32, 0xA685CBFD, .res_4_atIYd 0x85), (32, 0xA785CBFD, .res_4_atIYd_A 0x85)],
    [(32, 0xA885CBFD, .res_5_atIYd_B 0x85), (32, 0xA985CBFD, .res_5_atIYd_C 0x85),
     (32, 0xAA85CBFD, .res_5_atIYd_D 0x85), (32, 0xAB85CBFD, .res_5_atIYd_E 0x85),
     (32, 0xAC85CBFD, .res_5_atIYd_H 0x85), (32, 0xAD85CBFD, .res_5_atIYd_L 0x85),
     (32, 0xAE85CBFD, .res_5_atIYd 0x85), (32, 0xAF85CBFD, .res_5_atIYd_A 0x85),
     (32, 0xB085CBFD, .res_6_atIYd_B 0x85), (32, 0xB185CBFD, .res_6_atIYd_C 0x85),
     (32, 0xB285CBFD, .res_6_atIYd_D 0x85), (32, 0xB385CBFD, .res_6_atIYd_E 0x85),
     (32, 0xB485CBFD, .res_6_atIYd_H 0x85), (32, 0xB585CBFD, .res_6_atIYd_L 0x85),
     (32, 0xB685CBFD, .res_6_atIYd 0x85), (32, 0xB785CBFD, .res_6_atIYd_A 0x85)],
    [(32, 0xB885CBFD, .res_7_atIYd_B 0x85), (32, 0xB985CBFD, .res_7_atIYd_C 0x85),
     (32, 0xBA85CBFD, .res_7_atIYd_D 0x85), (32, 0xBB85CBFD, .res_7_atIYd_E 0x85),
     (32, 0xBC85CBFD, .res_7_atIYd_H 0x85), (32, 0xBD85CBFD, .res_7_atIYd_L 0x85),
     (32, 0xBE85CBFD, .res_7_atIYd 0x85), (32, 0xBF85CBFD, .res_7_atIYd_A 0x85),
     (32, 0xC085CBFD, .set_0_atIYd_B 0x85), (32, 0xC185CBFD, .set_0_atIYd_C 0x85),
     (32, 0xC285CBFD, .set_0_atIYd_D 0x85), (32, 0xC385CBFD, .set_0_atIYd_E 0x85),
     (32, 0xC485CBFD, .set_0_atIYd_H 0x85), (32, 0xC585CBFD, .set_0_atIYd_L 0x85),
     (32, 0xC685CBFD, .set_0_atIYd 0x85), (32, 0xC785CBFD, .set_0_atIYd_A 0x85)]] := by rfl

theorem test_words_fdcb_3 : Read [
    [(32, 0xC885CBFD, .set_1_atIYd_B 0x85), (32, 0xC985CBFD, .set_1_atIYd_C 0x85),
     (32, 0xCA85CBFD, .set_1_atIYd_D 0x85), (32, 0xCB85CBFD, .set_1_atIYd_E 0x85),
     (32, 0xCC85CBFD, .set_1_atIYd_H 0x85), (32, 0xCD85CBFD, .set_1_atIYd_L 0x85),
     (32, 0xCE85CBFD, .set_1_atIYd 0x85), (32, 0xCF85CBFD, .set_1_atIYd_A 0x85),
     (32, 0xD085CBFD, .set_2_atIYd_B 0x85), (32, 0xD185CBFD, .set_2_atIYd_C 0x85),
     (32, 0xD285CBFD, .set_2_atIYd_D 0x85), (32, 0xD385CBFD, .set_2_atIYd_E 0x85),
     (32, 0xD485CBFD, .set_2_atIYd_H 0x85), (32, 0xD585CBFD, .set_2_atIYd_L 0x85),
     (32, 0xD685CBFD, .set_2_atIYd 0x85), (32, 0xD785CBFD, .set_2_atIYd_A 0x85)],
    [(32, 0xD885CBFD, .set_3_atIYd_B 0x85), (32, 0xD985CBFD, .set_3_atIYd_C 0x85),
     (32, 0xDA85CBFD, .set_3_atIYd_D 0x85), (32, 0xDB85CBFD, .set_3_atIYd_E 0x85),
     (32, 0xDC85CBFD, .set_3_atIYd_H 0x85), (32, 0xDD85CBFD, .set_3_atIYd_L 0x85),
     (32, 0xDE85CBFD, .set_3_atIYd 0x85), (32, 0xDF85CBFD, .set_3_atIYd_A 0x85),
     (32, 0xE085CBFD, .set_4_atIYd_B 0x85), (32, 0xE185CBFD, .set_4_atIYd_C 0x85),
     (32, 0xE285CBFD, .set_4_atIYd_D 0x85), (32, 0xE385CBFD, .set_4_atIYd_E 0x85),
     (32, 0xE485CBFD, .set_4_atIYd_H 0x85), (32, 0xE585CBFD, .set_4_atIYd_L 0x85),
     (32, 0xE685CBFD, .set_4_atIYd 0x85), (32, 0xE785CBFD, .set_4_atIYd_A 0x85)],
    [(32, 0xE885CBFD, .set_5_atIYd_B 0x85), (32, 0xE985CBFD, .set_5_atIYd_C 0x85),
     (32, 0xEA85CBFD, .set_5_atIYd_D 0x85), (32, 0xEB85CBFD, .set_5_atIYd_E 0x85),
     (32, 0xEC85CBFD, .set_5_atIYd_H 0x85), (32, 0xED85CBFD, .set_5_atIYd_L 0x85),
     (32, 0xEE85CBFD, .set_5_atIYd 0x85), (32, 0xEF85CBFD, .set_5_atIYd_A 0x85),
     (32, 0xF085CBFD, .set_6_atIYd_B 0x85), (32, 0xF185CBFD, .set_6_atIYd_C 0x85),
     (32, 0xF285CBFD, .set_6_atIYd_D 0x85), (32, 0xF385CBFD, .set_6_atIYd_E 0x85),
     (32, 0xF485CBFD, .set_6_atIYd_H 0x85), (32, 0xF585CBFD, .set_6_atIYd_L 0x85),
     (32, 0xF685CBFD, .set_6_atIYd 0x85), (32, 0xF785CBFD, .set_6_atIYd_A 0x85)]] := by rfl

theorem test_words_fdcb_4 : Read [
    [(32, 0xF885CBFD, .set_7_atIYd_B 0x85), (32, 0xF985CBFD, .set_7_atIYd_C 0x85),
     (32, 0xFA85CBFD, .set_7_atIYd_D 0x85), (32, 0xFB85CBFD, .set_7_atIYd_E 0x85),
     (32, 0xFC85CBFD, .set_7_atIYd_H 0x85), (32, 0xFD85CBFD, .set_7_atIYd_L 0x85),
     (32, 0xFE85CBFD, .set_7_atIYd 0x85), (32, 0xFF85CBFD, .set_7_atIYd_A 0x85)]] := by rfl

end Sys2Proof.Tests
end

