-- ==== Sys2Proof/Tests/Slice0.lean ====
section
/-! SUPPORT. Smoke tests of `WellFormed`, words written out bit by bit, the worked example of each rule of 41_load.md to
49_io.md as one step, and power-on. Every expected value is the spec's. -/

namespace Sys2Proof.Tests

set_option Elab.async false

open Sys2Proof.Machine

/-! ## WellFormed: each check refuses an ill-formed term -/

theorem test_wf_ldXX : (Form.ldXX .ix .b .c).wf = false := by decide
theorem test_wf_ldXN : (Form.ldXN .iy .a 0x00).wf = false := by decide
theorem test_wf_aluX : (Form.aluX .add .ix .e).wf = false := by decide
theorem test_wf_incX : (Form.incX .ix .d).wf = false := by decide
theorem test_wf_decX : (Form.decX .iy .b).wf = false := by decide
theorem test_wf_edNop_neg : (Form.edNop 0x44).wf = false := by decide
theorem test_wf_edNop_ldi : (Form.edNop 0xA0).wf = false := by decide
theorem test_wf_retn_is_reti : (Form.retn 1).wf = false := by decide
theorem test_wf_ignored_hlx : (Form.ignored .ix 0x21).wf = false := by decide
theorem test_wf_instr : (Instr.edNop 0x44).wf = false := by decide
theorem test_wf_instr_good : (Instr.edNop 0x77).wf = true := by decide

/-! ## Words written bit by bit from the encodings of the rules: a later byte's bits stand to the left -/

/-- R301 `01 yyy zzz`: y = B = 000, z = C = 001. -/
theorem test_bits_load : decodeTableWord 8 0b01_000_001 = some .ld_B_C := by decide +kernel
/-- R321 `00 pp 0 001 nn`: p = SP = 11, nn = 0x8000. -/
theorem test_bits_load16 : decodeTableWord 24 0b10000000_00000000_00_11_0_001 = some (.ld_SP_nn 0x8000) := by decide +kernel
/-- R361 `11 101 011`. -/
theorem test_bits_exchange : decodeTableWord 8 0b11_101_011 = some .ex_DE_HL := by decide +kernel
/-- R367 `ED 10 110 000`. -/
theorem test_bits_block : decodeTableWord 16 0b10_110_000_11101101 = some .ldir := by decide +kernel
/-- R402 `DD 10 001 110 d`: ADC A,(IX+d). -/
theorem test_bits_arith8 : decodeTableWord 24 0b11111111_10_001_110_11011101 = some (.adc_A_atIXd 0xFF) := by decide +kernel
/-- R452 `ED 01 010 110`: y = 2, IM 1. -/
theorem test_bits_control : decodeTableWord 16 0b01_010_110_11101101 = some (.im_1 false) := by decide +kernel
/-- R470 `00 pp 1 001`: p = DE = 01. -/
theorem test_bits_arith16 : decodeTableWord 8 0b00_01_1_001 = some .add_HL_DE := by decide +kernel
/-- R501 `FD CB d 00 110 010`: SLL (IY+d),D. -/
theorem test_bits_rotate :
    decodeTableWord 32 0b00_110_010_00000001_11001011_11111101 = some (.sll_atIYd_D 0x01) := by decide +kernel
/-- R523 `CB 10 bbb zzz`: b = 011, z = A = 111. -/
theorem test_bits_bit : decodeTableWord 16 0b10_011_111_11001011 = some .res_3_A := by decide +kernel
/-- R543 `00 1 cc 000 e`: JR C,e, cc = 11. -/
theorem test_bits_jump : decodeTableWord 16 0b11111110_00_111_000 = some (.jr_C_e 0xFE) := by decide +kernel
/-- R575 `ED 01 yyy 001`: y = E = 011. -/
theorem test_bits_io : decodeTableWord 16 0b01_011_001_11101101 = some .out_atC_E := by decide +kernel
/-- R446: `ED 00` is an ED NOP. -/
theorem test_bits_edNop : decodeTableWord 16 0b00000000_11101101 = some (.edNop 0x00) := by decide +kernel

/-! ## One step -/

/-- A port device of the tests: every input reads `v`, with every bit driven. -/
def portDevice (v : Byte) : Link where
  handlers := { input := some (.script [{ v := some v, drv := 0xFF }]) }

/-- The machine of the tests: reset, PC = 0x8000, F = 0x00, the port device attached, `g` applied to the registers, `mem`
stored, and the instruction of `w` at PC. -/
noncomputable def at8000 (nbits w : Nat) (g : Regs → Regs) (mem : List (Word × Byte)) (port : Byte) : State :=
  let s : State := { State.reset with
    regs := g { State.reset.regs with f := 0x00, a := 0x00, pc := 0x8000 }
    chain := State.reset.chain ++ [portDevice port]
    cfg := { State.reset.cfg with floatingBus := [{ start := 0, stop := 1000, val := 0xFF }] } }
  (mem.foldl (fun s m => s.storeFetch m.1 m.2) s).withFetchWord nbits w

/-- The state after one step, as `see` sees it. -/
def after {α : Type} (s : State) (see : State → α) : Option α :=
  match step s with
  | .next t => some (see t)
  | _ => none

/-- One step with no memory and port value of interest. -/
noncomputable def ran {α : Type} (nbits w : Nat) (g : Regs → Regs) (see : State → α) : Option α :=
  after (at8000 nbits w g [] 0xFF) see

/-- One step with memory. -/
noncomputable def ranMem {α : Type} (nbits w : Nat) (g : Regs → Regs) (mem : List (Word × Byte)) (see : State → α) : Option α :=
  after (at8000 nbits w g mem 0xFF) see

/-- One step with a port byte. -/
noncomputable def ranIn {α : Type} (nbits w : Nat) (g : Regs → Regs) (port : Byte) (see : State → α) : Option α :=
  after (at8000 nbits w g [] port) see

/-! ### Loads -/

theorem test_ld_r_r :
    ran 8 0x41 (fun g => { g with c := 0x5A })
      (fun t => (t.regs.b, t.cc)) = some (0x5A, 4) := by decide +kernel -- R301
theorem test_ld_r_n : ran 16 0x423E id (fun t => (t.regs.a, t.cc)) = some (0x42, 7) := by decide +kernel -- R302
theorem test_ld_r_HL :
    ranMem 8 0x5E (fun g => { g with h := 0x80, l := 0x50 }) [(0x8050, 0x99)]
      (fun t => (t.regs.e, t.cc)) = some (0x99, 7) := by decide +kernel -- R303
theorem test_ld_HL_r :
    ran 8 0x77 (fun g => { g with h := 0x90, a := 0x12 })
      (fun t => (t.byteAt 0x9000, t.cc)) = some (0x12, 7) := by decide +kernel -- R304
theorem test_ld_HL_n :
    ran 16 0x5536 (fun g => { g with h := 0x90 })
      (fun t => (t.byteAt 0x9000, t.cc)) = some (0x55, 10) := by decide +kernel -- R305
theorem test_ld_A_BC :
    ranMem 8 0x0A (fun g => { g with b := 0x40 }) [(0x4000, 0x07)]
      (fun t => (t.regs.a, t.regs.wz, t.cc)) = some (0x07, 0x4001, 7) := by decide +kernel -- R306
theorem test_ld_A_DE :
    ranMem 8 0x1A (fun g => { g with d := 0x50 }) [(0x5000, 0xAA)]
      (fun t => (t.regs.a, t.regs.wz)) = some (0xAA, 0x5001) := by decide +kernel -- R307
theorem test_ld_A_nn :
    ranMem 24 0x60003A id [(0x6000, 0x3C)]
      (fun t => (t.regs.a, t.regs.wz, t.cc)) = some (0x3C, 0x6001, 13) := by decide +kernel -- R308
theorem test_ld_BC_A :
    ran 8 0x02 (fun g => { g with b := 0x40, a := 0x12 })
      (fun t => (t.byteAt 0x4000, t.regs.wz, t.cc)) = some (0x12, 0x1201, 7) := by decide +kernel -- R309
theorem test_ld_DE_A :
    ran 8 0x12 (fun g => { g with d := 0x50, a := 0x34 })
      (fun t => (t.byteAt 0x5000, t.regs.wz)) = some (0x34, 0x3401) := by decide +kernel -- R310
theorem test_ld_nn_A :
    ran 24 0x600032 (fun g => { g with a := 0x77 })
      (fun t => (t.byteAt 0x6000, t.regs.wz, t.cc)) = some (0x77, 0x7701, 13) := by decide +kernel -- R311
theorem test_ld_A_I :
    ran 16 0x57ED (fun g => { g with i := 0x80, iff2 := true, f := 0x01 })
      (fun t => (t.regs.a, t.regs.f, t.cc)) = some (0x80, 0x85, 9) := by decide +kernel -- R312
theorem test_ld_A_R :
    ran 16 0x5FED (fun g => { g with r := 0x10 })
      (fun t => (t.regs.a, t.regs.f, t.regs.r, t.cc)) = some (0x12, 0x00, 0x12, 9) := by decide +kernel -- R313
theorem test_ld_I_A :
    ran 16 0x47ED (fun g => { g with a := 0xFE })
      (fun t => (t.regs.i, t.cc)) = some (0xFE, 9) := by decide +kernel -- R314
theorem test_ld_R_A :
    ran 16 0x4FED (fun g => { g with a := 0x80 })
      (fun t => (t.regs.r, t.cc)) = some (0x80, 9) := by decide +kernel -- R315
theorem test_ld_r_idx :
    ranMem 24 0xFF46DD (fun g => { g with ix := 0x9000 }) [(0x8FFF, 0x21)]
      (fun t => (t.regs.b, t.regs.wz, t.cc)) = some (0x21, 0x8FFF, 19) := by decide +kernel -- R316, at another address
theorem test_ld_idx_r :
    ran 24 0x0177FD (fun g => { g with iy := 0x5C3A, a := 0x01 })
      (fun t => (t.byteAt 0x5C3B, t.cc)) = some (0x01, 19) := by decide +kernel -- R317
theorem test_ld_idx_n :
    ran 32 0x990236DD (fun g => { g with ix := 0x9000 })
      (fun t => (t.byteAt 0x9002, t.regs.wz, t.cc)) = some (0x99, 0x9002, 19) := by decide +kernel -- R318, at another address
theorem test_ld_half_r :
    ran 16 0x6FDD (fun g => { g with ix := 0x1234, a := 0xFF })
      (fun t => (t.regs.ix, t.cc)) = some (0x12FF, 8) := by decide +kernel -- R319
theorem test_ld_half_n :
    ran 24 0x5C26FD id
      (fun t => (t.regs.iy, t.cc)) = some (0x5C00, 11) := by decide +kernel -- R320
theorem test_ld_rr_nn :
    ran 24 0x800031 id
      (fun t => (t.regs.sp, t.cc)) = some (0x8000, 10) := by decide +kernel -- R321
theorem test_ld_ii_nn :
    ran 32 0x400021DD id
      (fun t => (t.regs.ix, t.cc)) = some (0x4000, 14) := by decide +kernel -- R322
theorem test_ld_HL_nn :
    ranMem 24 0x60002A id [(0x6000, 0x34), (0x6001, 0x12)]
      (fun t => (t.regs.h, t.regs.l, t.regs.wz, t.cc)) = some (0x12, 0x34, 0x6001, 16) := by decide +kernel -- R323
theorem test_ld_IY_atnn :
    ranMem 32 0x60002AFD id [(0x6001, 0x80)]
      (fun t => (t.regs.iy, t.cc)) = some (0x8000, 20) := by decide +kernel -- R324
theorem test_ld_SP_atnn :
    ranMem 32 0x60007BED id [(0x6000, 0xFE), (0x6001, 0xFF)]
      (fun t => (t.regs.sp, t.cc)) = some (0xFFFE, 20) := by decide +kernel -- R325
theorem test_ld_nn_HL :
    ran 24 0x600022 (fun g => { g with h := 0x12, l := 0x34 })
      (fun t => (t.byteAt 0x6000, t.byteAt 0x6001, t.cc)) = some (0x34, 0x12, 16) := by decide +kernel -- R326
theorem test_ld_nn_IX :
    ran 32 0x600022DD (fun g => { g with ix := 0xABCD })
      (fun t => (t.byteAt 0x6000, t.byteAt 0x6001, t.cc)) = some (0xCD, 0xAB, 20) := by decide +kernel -- R327
theorem test_ld_nn_SP :
    ran 32 0x600073ED (fun g => { g with sp := 0xFF00 })
      (fun t => (t.byteAt 0x6000, t.byteAt 0x6001, t.cc)) = some (0x00, 0xFF, 20) := by decide +kernel -- R328
theorem test_ld_SP_HL :
    ran 8 0xF9 (fun g => { g with h := 0x7F, l := 0xF0 })
      (fun t => (t.regs.sp, t.cc)) = some (0x7FF0, 6) := by decide +kernel -- R329
theorem test_ld_SP_IX :
    ran 16 0xF9DD (fun g => { g with ix := 0x6000 })
      (fun t => (t.regs.sp, t.cc)) = some (0x6000, 10) := by decide +kernel -- R331
theorem test_push_BC :
    ran 8 0xC5 (fun g => { g with sp := 0x8000, b := 0x12, c := 0x34 })
      (fun t => (t.byteAt 0x7FFF, t.byteAt 0x7FFE, t.regs.sp, t.cc)) = some (0x12, 0x34, 0x7FFE, 11) := by decide +kernel -- R332
theorem test_push_IX :
    ran 16 0xE5DD (fun g => { g with sp := 0x8000, ix := 0xBEEF })
      (fun t => (t.byteAt 0x7FFF, t.byteAt 0x7FFE, t.regs.sp, t.cc)) = some (0xBE, 0xEF, 0x7FFE, 15) := by decide +kernel -- R333
theorem test_pop_AF :
    ranMem 8 0xF1 (fun g => { g with sp := 0x7FFE }) [(0x7FFE, 0xFF)]
      (fun t => (t.regs.a, t.regs.f, t.regs.sp, t.cc)) = some (0x00, 0xFF, 0x8000, 10) := by decide +kernel -- R334
theorem test_pop_IY :
    ranMem 16 0xE1FD (fun g => { g with sp := 0x7FFE }) [(0x7FFF, 0x40)]
      (fun t => (t.regs.iy, t.regs.sp, t.cc)) = some (0x4000, 0x8000, 14) := by decide +kernel -- R335
theorem test_push_wraps :
    ran 8 0xC5 (fun g => { g with sp := 0x0000, b := 0x12, c := 0x34 })
      (fun t => (t.byteAt 0xFFFF, t.byteAt 0xFFFE)) = some (0x12, 0x34) := by decide +kernel -- R330
/-! ### Exchanges and block instructions -/

theorem test_ex_AF :
    ran 8 0x08 (fun g => { g with a := 0x12, f := 0x34, a' := 0xAB, f' := 0xCD })
      (fun t => (t.regs.a, t.regs.f, t.regs.a', t.regs.f')) = some (0xAB, 0xCD, 0x12, 0x34) := by decide +kernel -- R360
theorem test_ex_DE_HL :
    ran 8 0xEB (fun g => { g with d := 0x11, e := 0x11, h := 0x22, l := 0x22 })
      (fun t => (t.regs.d, t.regs.e, t.regs.h, t.regs.l)) = some (0x22, 0x22, 0x11, 0x11) := by decide +kernel -- R361
theorem test_exx :
    ran 8 0xD9 (fun g => { g with c := 0x01, c' := 0x02 })
      (fun t => (t.regs.c, t.regs.c')) = some (0x02, 0x01) := by decide +kernel -- R362
theorem test_ex_SP_HL :
    ranMem 8 0xE3 (fun g => { g with sp := 0x9000, h := 0xAB, l := 0xCD }) [(0x9000, 0x34), (0x9001, 0x12)]
      (fun t => (t.regs.h, t.regs.l, t.byteAt 0x9000, t.byteAt 0x9001, t.regs.wz, t.cc)) = some (0x12, 0x34, 0xCD, 0xAB, 0x1234, 19) := by decide +kernel -- R363, at another address
theorem test_ex_SP_IX :
    ranMem 16 0xE3DD (fun g => { g with sp := 0x9000, ix := 0x1234 }) [(0x9001, 0x40)]
      (fun t => (t.regs.ix, t.byteAt 0x9000, t.byteAt 0x9001, t.cc)) = some (0x4000, 0x34, 0x12, 23) := by decide +kernel -- R364, at another address
theorem test_ldi :
    ranMem 16 0xA0ED (fun g => { g with h := 0xA0, d := 0x90, c := 0x02 }) [(0xA000, 0x3C)]
      (fun t => (t.byteAt 0x9000, t.regs.hl, t.regs.de, t.regs.bc, t.regs.f, t.cc)) = some (0x3C, 0xA001, 0x9001, 0x0001, 0x0C, 16) := by decide +kernel -- R366, at another address
theorem test_ldir_repeats :
    ranMem 16 0xB0ED (fun g => { g with h := 0xA0, d := 0x90, c := 0x02 }) [(0xA000, 0x3C)]
      (fun t => (t.regs.pc, t.regs.wz, t.regs.bc, t.cc)) = some (0x8000, 0x8001, 0x0001, 21) := by decide +kernel -- R367
theorem test_ldir_ends :
    ranMem 16 0xB0ED (fun g => { g with h := 0xA0, d := 0x90, c := 0x01 }) [(0xA000, 0x3C)]
      (fun t => (t.regs.pc, t.regs.hl, t.regs.de, t.regs.bc, t.cc)) = some (0x8002, 0xA001, 0x9001, 0x0000, 16) := by decide +kernel -- R367
theorem test_ldd :
    ran 16 0xA8ED (fun g => { g with h := 0xA0, l := 0x01, d := 0x90, e := 0x01, c := 0x01 })
      (fun t => (t.regs.hl, t.regs.de, t.regs.bc, t.regs.f &&& 0x04)) = some (0xA000, 0x9000, 0x0000, 0x00) := by decide +kernel -- R368
theorem test_lddr_repeats :
    ran 16 0xB8ED (fun g => { g with h := 0xA0, l := 0x01, d := 0x90, e := 0x01, c := 0x02 })
      (fun t => (t.regs.pc, t.regs.hl, t.regs.de, t.cc)) = some (0x8000, 0xA000, 0x9000, 21) := by decide +kernel -- R369
theorem test_cpi :
    ranMem 16 0xA1ED (fun g => { g with a := 0x10, h := 0xA0, c := 0x01 }) [(0xA000, 0x10)]
      (fun t => (t.regs.f, t.regs.bc, t.regs.hl, t.cc)) = some (0x42, 0x0000, 0xA001, 16) := by decide +kernel -- R370
theorem test_cpir_repeats :
    ranMem 16 0xB1ED (fun g => { g with a := 0x20, h := 0xA0, c := 0x05 }) [(0xA000, 0x10)]
      (fun t => (t.regs.pc, t.regs.hl, t.regs.bc, t.cc)) = some (0x8000, 0xA001, 0x0004, 21) := by decide +kernel -- R371
theorem test_cpir_finds :
    ranMem 16 0xB1ED (fun g => { g with a := 0x20, h := 0xA0, l := 0x01, c := 0x04 }) [(0xA001, 0x20)]
      (fun t => (t.regs.pc, t.regs.hl, t.regs.bc, t.regs.f &&& 0x44, t.cc)) = some (0x8002, 0xA002, 0x0003, 0x44, 16) := by decide +kernel -- R371
theorem test_cpd :
    ranMem 16 0xA9ED (fun g => { g with h := 0xA0, c := 0x02 }) [(0xA000, 0x01)]
      (fun t => (t.regs.f, t.regs.hl, t.regs.bc)) = some (0xBE, 0x9FFF, 0x0001) := by decide +kernel -- R372
theorem test_cpdr_repeats :
    ranMem 16 0xB9ED (fun g => { g with a := 0x10, h := 0xA0, l := 0x01, c := 0x05 }) [(0xA001, 0x20)]
      (fun t => (t.regs.pc, t.regs.hl, t.regs.bc)) = some (0x8000, 0xA000, 0x0004) := by decide +kernel -- R373
/-! ### 8-bit arithmetic -/

theorem test_add :
    ran 8 0x80 (fun g => { g with a := 0x7F, b := 0x01 })
      (fun t => (t.regs.a, t.regs.f, t.cc)) = some (0x80, 0x94, 4) := by decide +kernel -- R401
theorem test_add_corner :
    ran 8 0x80 (fun g => { g with a := 0x80, b := 0x80 })
      (fun t => (t.regs.a, t.regs.f)) = some (0x00, 0x45) := by decide +kernel -- R401
theorem test_adc :
    ran 16 0x00CE (fun g => { g with a := 0xFF, f := 0x01 })
      (fun t => (t.regs.a, t.regs.f, t.cc)) = some (0x00, 0x51, 7) := by decide +kernel -- R402
theorem test_sub :
    ran 16 0x01D6 (fun g => { g with a := 0x10 })
      (fun t => (t.regs.a, t.regs.f, t.cc)) = some (0x0F, 0x1A, 7) := by decide +kernel -- R403
theorem test_sbc :
    ran 8 0x98 (fun g => { g with f := 0x01 })
      (fun t => (t.regs.a, t.regs.f, t.cc)) = some (0xFF, 0xBB, 4) := by decide +kernel -- R404
theorem test_and :
    ran 16 0x0FE6 (fun g => { g with a := 0xF0 })
      (fun t => (t.regs.a, t.regs.f, t.cc)) = some (0x00, 0x54, 7) := by decide +kernel -- R405
theorem test_xor :
    ran 8 0xAF (fun g => { g with a := 0x5A })
      (fun t => (t.regs.a, t.regs.f, t.cc)) = some (0x00, 0x44, 4) := by decide +kernel -- R406
theorem test_or :
    ran 16 0x80F6 (fun g => { g with a := 0x01 })
      (fun t => (t.regs.a, t.regs.f, t.cc)) = some (0x81, 0x84, 7) := by decide +kernel -- R407
theorem test_cp :
    ran 16 0x28FE (fun g => { g with a := 0x10 })
      (fun t => (t.regs.a, t.regs.f, t.cc)) = some (0x10, 0xBB, 7) := by decide +kernel -- R408
theorem test_inc_r :
    ran 8 0x3C (fun g => { g with a := 0x7F, f := 0x01 })
      (fun t => (t.regs.a, t.regs.f, t.cc)) = some (0x80, 0x95, 4) := by decide +kernel -- R410
theorem test_inc_HL :
    ranMem 8 0x34 (fun g => { g with h := 0x90 }) [(0x9000, 0x0F)]
      (fun t => (t.byteAt 0x9000, t.regs.f &&& 0x10, t.cc)) = some (0x10, 0x10, 11) := by decide +kernel -- R411
theorem test_inc_idx :
    ranMem 24 0x0534DD (fun g => { g with ix := 0x9000 }) [(0x9005, 0xFF)]
      (fun t => (t.byteAt 0x9005, t.regs.f &&& 0x40, t.cc)) = some (0x00, 0x40, 23) := by decide +kernel -- R412
theorem test_inc_half :
    ran 16 0x2CDD (fun g => { g with ix := 0x12FF })
      (fun t => (t.regs.ix, t.regs.f &&& 0x50, t.cc)) = some (0x1200, 0x50, 8) := by decide +kernel -- R413
theorem test_dec_r :
    ran 8 0x05 (fun g => { g with b := 0x01, f := 0x01 })
      (fun t => (t.regs.b, t.regs.f, t.cc)) = some (0x00, 0x43, 4) := by decide +kernel -- R414
theorem test_dec_HL :
    ran 8 0x35 (fun g => { g with h := 0x90 })
      (fun t => (t.byteAt 0x9000, t.regs.f &&& 0x92, t.cc)) = some (0xFF, 0x92, 11) := by decide +kernel -- R415
theorem test_dec_idx :
    ranMem 24 0xFF35FD (fun g => { g with iy := 0x5C00 }) [(0x5BFF, 0x01)]
      (fun t => (t.byteAt 0x5BFF, t.regs.f &&& 0x40, t.cc)) = some (0x00, 0x40, 23) := by decide +kernel -- R416
theorem test_dec_half :
    ran 16 0x25FD (fun g => { g with iy := 0x0100 })
      (fun t => (t.regs.iy, t.regs.f &&& 0x40, t.cc)) = some (0x0000, 0x40, 8) := by decide +kernel -- R417
/-! ### Control -/

theorem test_daa :
    ran 8 0x27 (fun g => { g with a := 0x3C, f := 0x28 })
      (fun t => (t.regs.a, t.regs.f, t.cc)) = some (0x42, 0x14, 4) := by decide +kernel -- R440
theorem test_daa_corner :
    ran 8 0x27 (fun g => { g with a := 0x9A })
      (fun t => (t.regs.a, t.regs.f)) = some (0x00, 0x55) := by decide +kernel -- R440
theorem test_cpl :
    ran 8 0x2F (fun g => { g with a := 0x5A })
      (fun t => (t.regs.a, t.regs.f, t.cc)) = some (0xA5, 0x32, 4) := by decide +kernel -- R441
theorem test_neg :
    ran 16 0x44ED (fun g => { g with a := 0x01 })
      (fun t => (t.regs.a, t.regs.f, t.cc)) = some (0xFF, 0xBB, 8) := by decide +kernel -- R442
theorem test_ccf :
    ran 8 0x3F (fun g => { g with f := 0x01 })
      (fun t => (t.regs.f, t.cc)) = some (0x10, 4) := by decide +kernel -- R443
theorem test_scf :
    ran 8 0x37 (fun g => { g with a := 0x28 })
      (fun t => (t.regs.f, t.cc)) = some (0x29, 4) := by decide +kernel -- R444
theorem test_nop :
    ran 8 0x00 id
      (fun t => (t.regs.pc, t.regs.r, t.cc, t.ic)) = some (0x8001, 0x01, 4, 1) := by decide +kernel -- R445
theorem test_ed_nop :
    ran 16 0x00ED id
      (fun t => (t.regs.pc, t.regs.r, t.cc)) = some (0x8002, 0x02, 8) := by decide +kernel -- R446
theorem test_halt :
    ran 8 0x76 id
      (fun t => (t.regs.pc, t.regs.halted, t.cc)) = some (0x8000, true, 4) := by decide +kernel -- R447
theorem test_di :
    ran 8 0xF3 (fun g => { g with iff1 := true, iff2 := true })
      (fun t => (t.regs.iff1, t.regs.iff2)) = some (false, false) := by decide +kernel -- R448
theorem test_ei :
    ran 8 0xFB id
      (fun t => (t.regs.iff1, t.regs.iff2, t.regs.intBlock)) = some (true, true, true) := by decide +kernel -- R449
theorem test_im : ran 16 0x56ED id (fun t => (t.regs.im, t.cc)) = some (.im1, 8) := by decide +kernel -- R452
/-! ### 16-bit arithmetic -/

theorem test_add_HL :
    ran 8 0x09 (fun g => { g with h := 0x0F, l := 0xFF, c := 0x01 })
      (fun t => (t.regs.hl, t.regs.f, t.regs.wz, t.cc)) = some (0x1000, 0x10, 0x1000, 11) := by decide +kernel -- R470
theorem test_add_IX :
    ran 16 0x09DD (fun g => { g with ix := 0x1000, b := 0x08 })
      (fun t => (t.regs.ix, t.regs.f, t.cc)) = some (0x1800, 0x08, 15) := by decide +kernel -- R471
theorem test_adc_HL :
    ran 16 0x4AED (fun g => { g with h := 0x7F, l := 0xFF, f := 0x01 })
      (fun t => (t.regs.hl, t.regs.f, t.cc)) = some (0x8000, 0x94, 15) := by decide +kernel -- R472
theorem test_sbc_HL :
    ran 16 0x42ED (fun g => { g with c := 0x01 })
      (fun t => (t.regs.hl, t.regs.f, t.cc)) = some (0xFFFF, 0xBB, 15) := by decide +kernel -- R473
theorem test_inc_SP :
    ran 8 0x33 (fun g => { g with sp := 0xFFFF })
      (fun t => (t.regs.sp, t.cc)) = some (0x0000, 6) := by decide +kernel -- R474
theorem test_inc_IX :
    ran 16 0x23DD (fun g => { g with ix := 0x00FF })
      (fun t => (t.regs.ix, t.cc)) = some (0x0100, 10) := by decide +kernel -- R475
theorem test_dec_BC :
    ran 8 0x0B (fun g => { g with c := 0x01 })
      (fun t => (t.regs.bc, t.regs.f)) = some (0x0000, 0x00) := by decide +kernel -- R476
theorem test_dec_IY : ran 16 0x2BFD id (fun t => (t.regs.iy, t.cc)) = some (0xFFFF, 10) := by decide +kernel -- R477
/-! ### Rotates -/

theorem test_rlca :
    ran 8 0x07 (fun g => { g with a := 0x81 })
      (fun t => (t.regs.a, t.regs.f, t.cc)) = some (0x03, 0x01, 4) := by decide +kernel -- R490
theorem test_rrca :
    ran 8 0x0F (fun g => { g with a := 0x01, f := 0xC4 })
      (fun t => (t.regs.a, t.regs.f, t.cc)) = some (0x80, 0xC5, 4) := by decide +kernel -- R491
theorem test_rla :
    ran 8 0x17 (fun g => { g with a := 0x80 })
      (fun t => (t.regs.a, t.regs.f, t.cc)) = some (0x00, 0x01, 4) := by decide +kernel -- R492
theorem test_rra :
    ran 8 0x1F (fun g => { g with a := 0x01, f := 0x01 })
      (fun t => (t.regs.a, t.regs.f, t.cc)) = some (0x80, 0x01, 4) := by decide +kernel -- R493
theorem test_rlc :
    ran 16 0x00CB (fun g => { g with b := 0x81 })
      (fun t => (t.regs.b, t.regs.f, t.cc)) = some (0x03, 0x05, 8) := by decide +kernel -- R495
theorem test_rrc :
    ran 16 0x08CB (fun g => { g with b := 0x81 })
      (fun t => (t.regs.b, t.regs.f, t.cc)) = some (0xC0, 0x85, 8) := by decide +kernel -- R496
theorem test_rl :
    ran 16 0x10CB (fun g => { g with b := 0x81 })
      (fun t => (t.regs.b, t.regs.f, t.cc)) = some (0x02, 0x01, 8) := by decide +kernel -- R497
theorem test_rr :
    ran 16 0x18CB (fun g => { g with b := 0x81 })
      (fun t => (t.regs.b, t.regs.f, t.cc)) = some (0x40, 0x01, 8) := by decide +kernel -- R498
theorem test_sla :
    ran 16 0x20CB (fun g => { g with b := 0x81 })
      (fun t => (t.regs.b, t.regs.f, t.cc)) = some (0x02, 0x01, 8) := by decide +kernel -- R499
theorem test_sra :
    ran 16 0x28CB (fun g => { g with b := 0x81 })
      (fun t => (t.regs.b, t.regs.f, t.cc)) = some (0xC0, 0x85, 8) := by decide +kernel -- R500
theorem test_sll :
    ran 16 0x30CB (fun g => { g with b := 0x81 })
      (fun t => (t.regs.b, t.regs.f, t.cc)) = some (0x03, 0x05, 8) := by decide +kernel -- R501
theorem test_srl :
    ran 16 0x38CB (fun g => { g with b := 0x81 })
      (fun t => (t.regs.b, t.regs.f, t.cc)) = some (0x40, 0x01, 8) := by decide +kernel -- R502
theorem test_rlc_idx_copy :
    ranMem 32 0x0001CBDD (fun g => { g with ix := 0x9000 }) [(0x9001, 0x81)]
      (fun t => (t.regs.b, t.byteAt 0x9001, t.regs.wz, t.cc)) = some (0x03, 0x03, 0x9001, 23) := by decide +kernel -- R494
theorem test_rld :
    ranMem 16 0x6FED (fun g => { g with a := 0x12, h := 0x90 }) [(0x9000, 0x34)]
      (fun t => (t.regs.a, t.byteAt 0x9000, t.regs.f, t.regs.wz, t.cc)) = some (0x13, 0x42, 0x00, 0x9001, 18) := by decide +kernel -- R503
theorem test_rrd :
    ranMem 16 0x67ED (fun g => { g with a := 0x12, h := 0x90 }) [(0x9000, 0x34)]
      (fun t => (t.regs.a, t.byteAt 0x9000, t.regs.f, t.cc)) = some (0x14, 0x23, 0x04, 18) := by decide +kernel -- R504
/-! ### Bits -/

theorem test_bit_r :
    ran 16 0x47CB (fun g => { g with a := 0x28, f := 0x01 })
      (fun t => (t.regs.f, t.cc)) = some (0x7D, 8) := by decide +kernel -- R520
theorem test_bit_7 :
    ran 16 0x7FCB (fun g => { g with a := 0x80 })
      (fun t => (t.regs.f)) = some (0x90) := by decide +kernel -- R520
theorem test_bit_HL :
    ran 16 0x46CB (fun g => { g with wz := 0x2800, h := 0x90 })
      (fun t => (t.regs.f, t.cc)) = some (0x7C, 12) := by decide +kernel -- R521
theorem test_bit_idx :
    ranMem 32 0x4610CBDD (fun g => { g with ix := 0x2800 }) [(0x2810, 0x01)]
      (fun t => (t.regs.f, t.regs.wz, t.cc)) = some (0x38, 0x2810, 20) := by decide +kernel -- R522
theorem test_res_r :
    ran 16 0x80CB (fun g => { g with b := 0xFF })
      (fun t => (t.regs.b, t.cc)) = some (0xFE, 8) := by decide +kernel -- R523
theorem test_res_HL :
    ranMem 16 0x86CB (fun g => { g with h := 0x90 }) [(0x9000, 0xFF)]
      (fun t => (t.byteAt 0x9000, t.cc)) = some (0xFE, 15) := by decide +kernel -- R524
theorem test_res_idx_copy :
    ranMem 32 0x8001CBDD (fun g => { g with ix := 0x9000 }) [(0x9001, 0xFF)]
      (fun t => (t.byteAt 0x9001, t.regs.b, t.cc)) = some (0xFE, 0xFE, 23) := by decide +kernel -- R525
theorem test_set_r : ran 16 0xFFCB id (fun t => (t.regs.a, t.cc)) = some (0x80, 8) := by decide +kernel -- R526
theorem test_set_HL :
    ran 16 0xFECB (fun g => { g with h := 0x90 })
      (fun t => (t.byteAt 0x9000, t.cc)) = some (0x80, 15) := by decide +kernel -- R527
theorem test_set_idx :
    ran 32 0xC600CBFD (fun g => { g with iy := 0x5C3B })
      (fun t => (t.byteAt 0x5C3B, t.cc)) = some (0x01, 23) := by decide +kernel -- R528
/-! ### Jumps -/

theorem test_jp :
    ran 24 0x4000C3 id
      (fun t => (t.regs.pc, t.regs.wz, t.cc)) = some (0x4000, 0x4000, 10) := by decide +kernel -- R540
theorem test_jp_cc_not :
    ran 24 0x4000CA id
      (fun t => (t.regs.pc, t.regs.wz, t.cc)) = some (0x8003, 0x4000, 10) := by decide +kernel -- R541
theorem test_jr :
    ran 16 0xFE18 id
      (fun t => (t.regs.pc, t.regs.wz, t.cc)) = some (0x8000, 0x8000, 12) := by decide +kernel -- R542
theorem test_jr_nz_taken :
    ran 16 0x0520 id
      (fun t => (t.regs.pc, t.cc)) = some (0x8007, 12) := by decide +kernel -- R543
theorem test_jr_nz_not :
    ran 16 0x0520 (fun g => { g with f := 0x40 })
      (fun t => (t.regs.pc, t.cc)) = some (0x8002, 7) := by decide +kernel -- R543
theorem test_djnz_taken :
    ran 16 0xFE10 (fun g => { g with b := 0x02 })
      (fun t => (t.regs.pc, t.regs.b, t.cc)) = some (0x8000, 0x01, 13) := by decide +kernel -- R544
theorem test_djnz_not :
    ran 16 0xFE10 (fun g => { g with b := 0x01 })
      (fun t => (t.regs.pc, t.regs.b, t.cc)) = some (0x8002, 0x00, 8) := by decide +kernel -- R544
theorem test_jp_HL :
    ran 8 0xE9 (fun g => { g with h := 0x12, l := 0x34 })
      (fun t => (t.regs.pc, t.cc)) = some (0x1234, 4) := by decide +kernel -- R545
theorem test_jp_IX :
    ran 16 0xE9DD (fun g => { g with ix := 0x1234 })
      (fun t => (t.regs.pc, t.cc)) = some (0x1234, 8) := by decide +kernel -- R546
theorem test_call :
    ran 24 0x1234CD (fun g => { g with sp := 0x9000 })
      (fun t => (t.regs.pc, t.regs.sp, t.byteAt 0x8FFE, t.byteAt 0x8FFF, t.cc)) = some (0x1234, 0x8FFE, 0x03, 0x80, 17) := by decide +kernel -- R547
theorem test_call_nz_not :
    ran 24 0x1234C4 (fun g => { g with f := 0x40 })
      (fun t => (t.regs.pc, t.regs.wz, t.cc)) = some (0x8003, 0x1234, 10) := by decide +kernel -- R548
theorem test_ret :
    ranMem 8 0xC9 (fun g => { g with sp := 0x8FFE }) [(0x8FFE, 0x03), (0x8FFF, 0x80)]
      (fun t => (t.regs.pc, t.regs.sp, t.cc)) = some (0x8003, 0x9000, 10) := by decide +kernel -- R549
theorem test_ret_nz_not :
    ran 8 0xC0 (fun g => { g with f := 0x40 })
      (fun t => (t.regs.pc, t.cc)) = some (0x8001, 5) := by decide +kernel -- R550
theorem test_reti :
    ranMem 16 0x4DED (fun g => { g with sp := 0x8FFE, iff2 := true }) [(0x8FFE, 0x03), (0x8FFF, 0x80)]
      (fun t => (t.regs.pc, t.regs.iff1, t.cc)) = some (0x8003, true, 14) := by decide +kernel -- R551
theorem test_retn :
    ran 16 0x45ED (fun g => { g with sp := 0x8FFE, iff2 := true })
      (fun t => (t.regs.iff1)) = some (true) := by decide +kernel -- R552
theorem test_rst :
    ran 8 0xFF (fun g => { g with sp := 0x9000 })
      (fun t => (t.regs.pc, t.byteAt 0x8FFE, t.byteAt 0x8FFF, t.cc)) = some (0x0038, 0x01, 0x80, 11) := by decide +kernel -- R553
/-! ### Ports -/

theorem test_in_A_n :
    ranIn 16 0xFEDB (fun g => { g with a := 0x12 }) 0xBF
      (fun t => (t.regs.a, t.regs.f, t.regs.wz, t.cc)) = some (0xBF, 0x00, 0x12FF, 11) := by decide +kernel -- R571
theorem test_in_r_C :
    ranIn 16 0x40ED (fun g => { g with b := 0x12, c := 0x34, f := 0x01 }) 0x80
      (fun t => (t.regs.b, t.regs.f, t.regs.wz, t.cc)) = some (0x80, 0x81, 0x1235, 12) := by decide +kernel -- R572
theorem test_in_F_C :
    ranIn 16 0x70ED (fun g => { g with b := 0x12, c := 0x34, f := 0x01 }) 0x00
      (fun t => (t.regs.f, t.cc)) = some (0x45, 12) := by decide +kernel -- R573
theorem test_out_n_A :
    ran 16 0xFED3 (fun g => { g with a := 0x12 })
      (fun t => (t.callouts, t.regs.wz, t.cc)) = some ([.portOut 7 0x12FE 0x12], 0x12FF, 11) := by decide +kernel -- R574
theorem test_out_n_A_wz :
    ran 16 0xFFD3 (fun g => { g with a := 0x12 })
      (fun t => (t.regs.wz)) = some (0x1200) := by decide +kernel -- R574
theorem test_out_C_r :
    ran 16 0x79ED (fun g => { g with b := 0x12, c := 0xFE, a := 0x07 })
      (fun t => (t.callouts, t.regs.wz, t.cc)) = some ([.portOut 8 0x12FE 0x07], 0x12FF, 12) := by decide +kernel -- R575
theorem test_out_C_0 :
    ran 16 0x71ED (fun g => { g with b := 0x12, c := 0xFE })
      (fun t => (t.callouts, t.cc)) = some ([.portOut 8 0x12FE 0x00], 12) := by decide +kernel -- R576
theorem test_ini :
    ranIn 16 0xA2ED (fun g => { g with b := 0x02, c := 0xFE, h := 0x90 }) 0x7F
      (fun t => (t.byteAt 0x9000, t.regs.b, t.regs.hl, t.regs.f, t.regs.wz, t.cc)) = some (0x7F, 0x01, 0x9001, 0x11, 0x02FF, 16) := by decide +kernel -- R578
theorem test_inir_repeats :
    ranIn 16 0xB2ED (fun g => { g with b := 0x02, c := 0xFE, h := 0x90 }) 0x7F
      (fun t => (t.regs.pc, t.regs.f, t.cc)) = some (0x8000, 0x11, 21) := by decide +kernel -- R579
theorem test_inir_ends :
    ranIn 16 0xB2ED (fun g => { g with b := 0x01, c := 0xFE, h := 0x90, l := 0x01 }) 0x7F
      (fun t => (t.regs.pc, t.regs.b, t.regs.hl, t.regs.f, t.regs.wz, t.cc)) = some (0x8002, 0x00, 0x9002, 0x55, 0x01FF, 16) := by decide +kernel -- R579
theorem test_ind :
    ranIn 16 0xAAED (fun g => { g with b := 0x02, h := 0x90 }) 0x01
      (fun t => (t.regs.b, t.regs.hl, t.regs.f, t.regs.wz, t.cc)) = some (0x01, 0x8FFF, 0x11, 0x01FF, 16) := by decide +kernel -- R580
theorem test_indr :
    ranIn 16 0xBAED (fun g => { g with b := 0x01, c := 0xFE, h := 0x90, l := 0x01 }) 0x10
      (fun t => (t.regs.b, t.regs.hl, t.regs.f, t.regs.wz, t.regs.pc, t.cc)) = some (0x00, 0x9000, 0x55, 0x01FD, 0x8002, 16) := by decide +kernel -- R581
theorem test_outi :
    ranMem 16 0xA3ED (fun g => { g with b := 0x02, c := 0xFE, h := 0x90 }) [(0x9000, 0x55)]
      (fun t => (t.callouts, t.regs.b, t.regs.hl, t.regs.f, t.regs.wz, t.cc)) = some ([.portOut 12 0x01FE 0x55], 0x01, 0x9001, 0x00, 0x01FF, 16) := by decide +kernel -- R582
theorem test_otir_ends :
    ranMem 16 0xB3ED (fun g => { g with b := 0x01, c := 0xFE, h := 0x90, l := 0x01 }) [(0x9001, 0x66)]
      (fun t => (t.callouts, t.regs.b, t.regs.hl, t.regs.f, t.regs.wz, t.regs.pc)) = some ([.portOut 12 0x00FE 0x66], 0x00, 0x9002, 0x44, 0x00FF, 0x8002) := by decide +kernel -- R583
theorem test_outd :
    ranMem 16 0xABED (fun g => { g with b := 0x02, c := 0xFE, h := 0x90 }) [(0x9000, 0x55)]
      (fun t => (t.regs.b, t.regs.hl, t.regs.f, t.regs.wz, t.cc)) = some (0x01, 0x8FFF, 0x15, 0x01FD, 16) := by decide +kernel -- R584
theorem test_otdr_repeats :
    ranMem 16 0xBBED (fun g => { g with b := 0x02, c := 0xFE, h := 0x90, l := 0x01 }) [(0x9001, 0x66)]
      (fun t => (t.callouts, t.regs.b, t.regs.f, t.regs.wz, t.regs.pc, t.cc)) = some ([.portOut 12 0x01FE 0x66], 0x01, 0x00, 0x01FD, 0x8000, 21) := by decide +kernel -- R585
/-! ### Prefixes -/

theorem test_prefix :
    ran 16 0x41DD (fun g => { g with c := 0x5A })
      (fun t => (t.regs.b, t.latch, t.ic, t.cc)) = some (0x00, some 0x41, 0, 8) := by decide +kernel -- R173: a discarded prefix

/-! ## Power-on -/

/-- `PowerOn(0)` in the default configuration leaves the reset state and answers the host. -/
theorem powerOn_reset : (match perform (hostOp (.powerOn defaultPowerOn 0)) State.reset with
    | .next t => decide (t = { State.reset with results := [.done] })
    | _ => false) = true := by decide +kernel

end Sys2Proof.Tests
end

