-- ==== Sys2Proof/Tests/Witnesses.lean ====
section
/-! SUPPORT. For every statement of Obligations.lean that has hypotheses, a concrete state and operands that meet them together,
clause by clause, at the edges of their ranges: addresses 0x0000 and 0xFFFF, and `cc` so high that the instruction's last
T-state is the last one the counter holds. -/

namespace Sys2Proof.Tests

set_option Elab.async false

open Sys2Proof.Machine

/-! ## Instructions -/

/-- A state with every pointer at an end of the address space and just room for `k` T-states. -/
def edge (k : Int) : State :=
  { State.reset with
    cc := 2147483647 - k
    regs := { Regs.powerOn with
      b := 0xFF, c := 0xFF, d := 0xFF, e := 0xFF, h := 0xFF, l := 0xFF
      ix := 0xFFFF, iy := 0x0000, sp := 0x0000, pc := 0x0000, i := 0xFF, r := 0xFF } }

theorem witness_DecodeOfEncode : (Instr.ld_atIXd_n 0xFF 0xFF).wf = true := by decide +kernel

theorem witness_DecodingIsTotalAndExact : decode [0xDD, 0x36, 0xFF, 0xFF] = .ok (.ld_atIXd_n 0xFF 0xFF, []) := by rfl

theorem witness_LoadRegisterForms :
    Instr.ld_A_B.form = .ldRR .a .b ∧ (Instr.ld_A_n 0xFF).form = .ldRN .a 0xFF ∧ Instr.ld_IXH_IXL.form = .ldXX .ix .h .l ∧
      (Instr.ld_IYL_n 0xFF).form = .ldXN .iy .l 0xFF ∧ (Instr.ld_SP_nn 0xFFFF).form = .ldRpNn .sp 0xFFFF ∧
      (Instr.ld_IY_nn 0xFFFF).form = .ldXyNn .iy 0xFFFF := by decide +kernel

theorem witness_LoadFromMemoryForms :
    (Instr.ld_A_atHL.form = .ldRHL .a ∧ (edge 3).calmRead (edge 3).regs.hl = true ∧ (edge 3).room 3) ∧
    ((Instr.ld_A_atIXd 0x7F).form = .ldRIdx .ix .a 0x7F ∧ (edge 8).calmIdle ((edge 8).regs.pc - 1) = true ∧
      (edge 8).calmRead ((edge 8).regs.indexed .ix 0x7F) = true ∧ (edge 8).room 8) ∧
    (Instr.ld_A_atBC.form = .ldAAt .bc ∧ (edge 3).calmRead ((edge 3).regs.get16 BcDe.bc.reg) = true ∧ (edge 3).room 3) ∧
    ((Instr.ld_A_atnn 0xFFFF).form = .ldANn 0xFFFF ∧ (edge 3).calmRead 0xFFFF = true ∧ (edge 3).room 3) := by
  unfold State.room; decide +kernel

theorem witness_StoreForms :
    (Instr.ld_atHL_A.form = .ldHLR .a ∧ (edge 3).calmWrite (edge 3).regs.hl = true ∧ (edge 3).room 3) ∧
    ((Instr.ld_atHL_n 0xFF).form = .ldHLN 0xFF ∧ (edge 3).calmWrite (edge 3).regs.hl = true ∧ (edge 3).room 3) ∧
    ((Instr.ld_atIXd_A 0x80).form = .ldIdxR .ix .a 0x80 ∧ (edge 8).calmIdle ((edge 8).regs.pc - 1) = true ∧
      (edge 8).calmWrite ((edge 8).regs.indexed .ix 0x80) = true ∧ (edge 8).room 8) ∧
    ((Instr.ld_atIYd_n 0xFF 0x00).form = .ldIdxN .iy 0xFF 0x00 ∧ (edge 5).calmIdle ((edge 5).regs.pc - 1) = true ∧
      (edge 5).calmWrite ((edge 5).regs.indexed .iy 0xFF) = true ∧ (edge 5).room 5) ∧
    (Instr.ld_atDE_A.form = .ldAtA .de ∧ (edge 3).calmWrite ((edge 3).regs.get16 BcDe.de.reg) = true ∧
      (edge 3).room 3) ∧
    ((Instr.ld_atnn_A 0xFFFF).form = .ldNnA 0xFFFF ∧ (edge 3).calmWrite 0xFFFF = true ∧ (edge 3).room 3) := by
  unfold State.room; decide +kernel

theorem witness_SpecialRegisterLoads :
    ((edge 1).calmIdle (edge 1).regs.ir = true ∧ Instr.ld_A_I.form = .ldAI ∧ Instr.ld_A_R.form = .ldAR ∧
      Instr.ld_I_A.form = .ldIA ∧ Instr.ld_R_A.form = .ldRA ∧ (edge 1).room 1) := by
  unfold State.room; decide +kernel

theorem witness_WordMemoryForms :
    ((edge 6).calmRead 0xFFFF = true ∧ (edge 6).calmRead (0xFFFF + 1) = true ∧
      (Instr.ld_HL_atnn 0xFFFF).form = .ldHLAtNn 0xFFFF ∧
      (Instr.ld_IX_atnn 0xFFFF).form = .ldXyAtNn .ix 0xFFFF ∧
      (Instr.ld_SP_atnn 0xFFFF).form = .ldRpAtNn .sp 0xFFFF ∧ (edge 6).room 6) ∧
    ((edge 6).calmWrite 0xFFFF = true ∧ (edge 6).calmWrite (0xFFFF + 1) = true ∧
      (Instr.ld_atnn_HL 0xFFFF).form = .ldNnHL 0xFFFF ∧ (Instr.ld_atnn_IY 0xFFFF).form = .ldNnXy .iy 0xFFFF ∧
      (Instr.ld_atnn_SP 0xFFFF).form = .ldNnRp .sp 0xFFFF ∧ (edge 6).room 6) := by
  unfold State.room; decide +kernel

theorem witness_StackForms :
    (Instr.ld_SP_HL.form = .ldSpHL ∧ Instr.ld_SP_IY.form = .ldSpXy .iy ∧ (edge 2).calmIdle (edge 2).regs.ir = true ∧
      (edge 2).room 2) ∧
    (Instr.push_AF.form = .push .af ∧ Instr.push_IX.form = .pushXy .ix ∧ (edge 7).calmIdle (edge 7).regs.ir = true ∧
      (edge 7).calmWrite ((edge 7).regs.sp - 1) = true ∧ (edge 7).calmWrite ((edge 7).regs.sp - 2) = true ∧
      (edge 7).room 7) ∧
    (Instr.pop_AF.form = .pop .af ∧ Instr.pop_IY.form = .popXy .iy ∧ (edge 6).calmRead (edge 6).regs.sp = true ∧
      (edge 6).calmRead ((edge 6).regs.sp + 1) = true ∧ (edge 6).room 6) := by
  unfold State.room; decide +kernel

theorem witness_ExchangeForms :
    (Instr.ex_AF_AF.form = .exAF ∧ Instr.ex_DE_HL.form = .exDEHL ∧ Instr.exx.form = .exx) ∧
    (Instr.ex_atSP_HL.form = .exSpHL ∧ Instr.ex_atSP_IX.form = .exSpXy .ix ∧
      (edge 15).calmData (edge 15).regs.sp = true ∧ (edge 15).calmData ((edge 15).regs.sp + 1) = true ∧
      (edge 15).room 15) := by
  unfold State.room; decide +kernel

theorem witness_BlockTransfer :
    (Instr.ldir.form = .ldBlock .up true ∧ (edge 13).calmRead (edge 13).regs.hl = true ∧
      (edge 13).calmWrite (edge 13).regs.de = true ∧ (edge 13).calmIdle (edge 13).regs.de = true ∧
      (edge 13).regs.bc - 1 ≠ 0 ∧ (edge 13).room 13) ∧
    (Instr.ldd.form = .ldBlock .down false ∧ (edge 13).calmRead (edge 13).regs.hl = true ∧
      (edge 13).calmWrite (edge 13).regs.de = true ∧ (edge 13).calmIdle (edge 13).regs.de = true ∧
      (edge 13).room 13) ∧
    (let s := (edge 13).withRegs fun g => { g with b := 0, c := 1 };
      Instr.lddr.form = .ldBlock .down true ∧ s.calmRead s.regs.hl = true ∧ s.calmWrite s.regs.de = true ∧
        s.calmIdle s.regs.de = true ∧ s.room 13 ∧ ¬s.regs.bc - 1 ≠ 0) := by
  unfold State.room; decide +kernel

theorem witness_BlockSearch :
    (Instr.cpir.form = .cpBlock .up true ∧ (edge 13).calmRead (edge 13).regs.hl = true ∧ (edge 13).regs.bc - 1 ≠ 0 ∧
      (edge 13).regs.a - (edge 13).byteAt (edge 13).regs.hl ≠ 0 ∧ (edge 13).room 13) ∧
    (let s := (edge 13).withRegs fun g => { g with a := 0 };
      Instr.cpdr.form = .cpBlock .down true ∧ s.calmRead s.regs.hl = true ∧ s.room 13 ∧ s.regs.a - s.byteAt s.regs.hl = 0) := by
  unfold State.room; decide +kernel

theorem witness_AccumulatorForms :
    (Instr.add_A_A.form = .aluR .add .a ∧ (Instr.cp_n 0xFF).form = .aluN .cp 0xFF ∧
      Instr.xor_IYL.form = .aluX .xor .iy .l) ∧
    (Instr.sbc_A_atHL.form = .aluHL .sbc ∧ (edge 3).calmRead (edge 3).regs.hl = true ∧ (edge 3).room 3) ∧
    ((Instr.or_atIXd 0x80).form = .aluIdx .or .ix 0x80 ∧ (edge 8).calmIdle ((edge 8).regs.pc - 1) = true ∧
      (edge 8).calmRead ((edge 8).regs.indexed .ix 0x80) = true ∧ (edge 8).room 8) := by
  unfold State.room; decide +kernel

theorem witness_ByteFlagRules :
    ((AluOp.adc = .add ∧ true = false) ∨ (AluOp.adc = .adc ∧ true = true)) ∧
    ((AluOp.cp = .sub ∧ false = false) ∨ (AluOp.cp = .sbc ∧ false = true) ∨ (AluOp.cp = .cp ∧ false = false)) := by
  decide +kernel

theorem witness_IncrementForms :
    (Instr.inc_A.form = .incR .a ∧ Instr.inc_IXH.form = .incX .ix .h ∧ Instr.dec_A.form = .decR .a ∧
      Instr.dec_IYL.form = .decX .iy .l) ∧
    (Instr.inc_atHL.form = .incHL ∧ Instr.dec_atHL.form = .decHL ∧ (edge 7).calmModify .atHL = true ∧
      eaTime 5 .atHL + 7 = 7 ∧ (edge 7).room 7) ∧
    ((Instr.inc_atIXd 0x80).form = .incIdx .ix 0x80 ∧ (edge 12).calmModify (.atIdx .ix 0x80) = true ∧
      eaTime 5 (.atIdx .ix 0x80) + 7 = 12 ∧ (edge 12).room 12) ∧
    ((Instr.dec_atIYd 0xFF).form = .decIdx .iy 0xFF ∧ (edge 12).calmModify (.atIdx .iy 0xFF) = true ∧
      eaTime 5 (.atIdx .iy 0xFF) + 7 = 12 ∧ (edge 12).room 12) := by
  unfold State.room; decide +kernel

theorem witness_AccumulatorAdjust :
    (Instr.daa.form = .daa ∧ Instr.cpl.form = .cpl ∧ (Instr.neg 7).form = .neg 7 ∧ Instr.ccf.form = .ccf ∧
      Instr.scf.form = .scf) := by
  decide +kernel

theorem witness_ControlForms :
    (Instr.nop.form = .nop ∧ (Instr.edNop 0xFF).form = .edNop 0xFF ∧ Instr.halt.form = .halt ∧ Instr.di.form = .di ∧
      Instr.ei.form = .ei) ∧
    ((Instr.im_0 true).form = .im 4 ∧ (Instr.im_0_1 false).form = .im 1 ∧ (Instr.im_1 true).form = .im 6 ∧
      (Instr.im_2 true).form = .im 7) := by
  decide +kernel

theorem witness_WordArithmeticForms :
    ((edge 7).calmIdle (edge 7).regs.ir = true ∧ Instr.add_HL_SP.form = .addHL .sp ∧
      Instr.add_IX_IX.form = .addXy .ix .hl ∧ Instr.adc_HL_HL.form = .adcHL .hl ∧
      Instr.sbc_HL_SP.form = .sbcHL .sp ∧ (edge 7).room 7) ∧
    (Instr.inc_SP.form = .incRp .sp ∧ Instr.inc_IX.form = .incXy .ix ∧ Instr.dec_SP.form = .decRp .sp ∧
      Instr.dec_IY.form = .decXy .iy) := by
  unfold State.room; decide +kernel

theorem witness_RotateFunctions :
    (0 < 8) ∧
    (7 < 8) := by
  decide +kernel

theorem witness_RotateForms :
    (Instr.rlca.form = .rlca ∧ Instr.rrca.form = .rrca ∧ Instr.rla.form = .rla ∧ Instr.rra.form = .rra ∧
      Instr.srl_A.form = .rotR .srl .a) ∧
    (Instr.rlc_atHL.form = .rotHL .rlc ∧ (edge 7).calmModify .atHL = true ∧ eaTime 2 .atHL + 7 = 7 ∧ (edge 7).room 7) ∧
    ((Instr.sll_atIXd_A 0x80).form = .rotIdx .sll .ix 0x80 (some .a) ∧
      (edge 9).calmModify (.atIdx .ix 0x80) = true ∧ eaTime 2 (.atIdx .ix 0x80) + 7 = 9 ∧ (edge 9).room 9) ∧
    ((Instr.sra_atIYd 0xFF).form = .rotIdx .sra .iy 0xFF none ∧ (edge 9).calmModify (.atIdx .iy 0xFF) = true ∧
      eaTime 2 (.atIdx .iy 0xFF) + 7 = 9 ∧ (edge 9).room 9) := by
  unfold State.room; decide +kernel

theorem witness_DigitRotates :
    (let s := edge 10;
      s.calmData s.regs.hl = true ∧ s.room 10 ∧
        (Instr.rld.form = .rld ∧ (0x0F : Byte).toNat = (s.byteAt s.regs.hl).toNat % 16 * 16 + s.regs.a.toNat % 16 ∧
          (0xF0 : Byte).toNat = s.regs.a.toNat / 16 * 16 + (s.byteAt s.regs.hl).toNat / 16) ∧
        (Instr.rrd.form = .rrd ∧ (0xF0 : Byte).toNat = s.regs.a.toNat % 16 * 16 + (s.byteAt s.regs.hl).toNat / 16 ∧
          (0xF0 : Byte).toNat = s.regs.a.toNat / 16 * 16 + (s.byteAt s.regs.hl).toNat % 16)) := by
  unfold State.room; decide +kernel

theorem witness_BitTestForms :
    (Instr.bit_7_A.form = .bitR 7 .a) ∧
    (Instr.bit_0_atHL.form = .bitHL 0 ∧ (edge 4).calmRead (edge 4).regs.hl = true ∧ (edge 4).room 4) ∧
    ((Instr.bit_7_atIXd 0x80 7).form = .bitIdx 7 .ix 0x80 7 ∧ (edge 6).calmIdle ((edge 6).regs.pc - 1) = true ∧
      (edge 6).calmRead ((edge 6).regs.indexed .ix 0x80) = true ∧ (edge 6).room 6) := by
  unfold State.room; decide +kernel

theorem witness_BitWriteForms :
    (Instr.res_0_A.form = .resR 0 .a ∧ Instr.set_7_A.form = .setR 7 .a) ∧
    (Instr.res_0_atHL.form = .resHL 0 ∧ Instr.set_7_atHL.form = .setHL 7 ∧ (edge 7).calmModify .atHL = true ∧
      eaTime 2 .atHL + 7 = 7 ∧ (edge 7).room 7) ∧
    ((Instr.res_7_atIXd 0x80).form = .resIdx 7 .ix 0x80 none ∧ (edge 9).calmModify (.atIdx .ix 0x80) = true ∧
      eaTime 2 (.atIdx .ix 0x80) + 7 = 9 ∧ (edge 9).room 9) ∧
    ((Instr.set_0_atIYd_A 0xFF).form = .setIdx 0 .iy 0xFF (some .a) ∧ (edge 9).calmModify (.atIdx .iy 0xFF) = true ∧
      eaTime 2 (.atIdx .iy 0xFF) + 7 = 9 ∧ (edge 9).room 9) := by
  unfold State.room; decide +kernel

theorem witness_JumpForms :
    ((Instr.jp_nn 0xFFFF).form = .jpNn 0xFFFF ∧ (Instr.jp_M_nn 0xFFFF).form = .jpCc .m 0xFFFF ∧
      Instr.jp_atHL.form = .jpHL ∧ Instr.jp_atIX.form = .jpXy .ix) ∧
    ((Instr.jr_NZ_e 0x80).form = .jrCc .nz 0x80 ∧ condHolds .nz (edge 5).regs.flags = false ∧
      (Instr.jr_C_e 0x80).form = .jrCc .c 0x80 ∧ condHolds .c (edge 5).regs.flags = true ∧
      (Instr.jr_e 0x80).form = .jr 0x80 ∧ (Instr.djnz_e 0x80).form = .djnz 0x80 ∧ (edge 5).regs.b ≠ 1 ∧
      (edge 5).calmIdle ((edge 5).regs.pc - 1) = true ∧ (edge 5).room 5) ∧
    (((edge 5).withRegs fun g => { g with b := 1 }).regs.b = 1) := by
  unfold State.room; decide +kernel

theorem witness_CallReturnForms :
    ((Instr.call_NZ_nn 0xFFFF).form = .callCc .nz 0xFFFF ∧ condHolds .nz (edge 7).regs.flags = false ∧
      (Instr.call_nn 0xFFFF).form = .callNn 0xFFFF ∧ (Instr.call_M_nn 0xFFFF).form = .callCc .m 0xFFFF ∧
      condHolds .m (edge 7).regs.flags = true ∧ (edge 7).calmIdle ((edge 7).regs.pc - 1) = true ∧
      (edge 7).calmPush = true ∧ Instr.rst_38H.form = .rst 7 ∧ (edge 7).calmIdle (edge 7).regs.ir = true ∧
      (edge 7).room 7) ∧
    (Instr.ret.form = .ret ∧ Instr.reti.form = .reti ∧ (Instr.retn 7).form = .retn 7 ∧ (edge 6).calmPop = true ∧
      (edge 6).room 6) ∧
    (Instr.ret_NZ.form = .retCc .nz ∧ (edge 1).calmIdle (edge 1).regs.ir = true ∧
      condHolds .nz (edge 1).regs.flags = false ∧ (edge 1).room 1) ∧
    (Instr.ret_M.form = .retCc .m ∧ (edge 7).calmIdle (edge 7).regs.ir = true ∧
      condHolds .m (edge 7).regs.flags = true ∧ (edge 7).calmPop = true ∧ (edge 7).room 7) := by
  unfold State.room; decide +kernel

theorem witness_PortForms :
    (let s := edge 4;
      (Instr.in_A_atn 0xFF).form = .inAN 0xFF ∧ s.calmIn (mkWord s.regs.a 0xFF) = true ∧ s.ioDelay (mkWord s.regs.a 0xFF) = 0 ∧
        s.room (s.ioDelay (mkWord s.regs.a 0xFF) + 4) ∧ (Instr.out_atn_A 0xFF).form = .outNA 0xFF ∧
        s.calmOut (mkWord s.regs.a 0xFF) s.regs.a = true) ∧
    (let s := edge 4;
      Instr.in_A_atC.form = .inRC .a ∧ Instr.in_F_atC.form = .inFC ∧ s.calmIn s.regs.bc = true ∧ s.room (s.ioDelay s.regs.bc + 4)) ∧
    (let s := edge 4;
      Instr.out_atC_A.form = .outCR .a ∧ s.calmOut s.regs.bc (s.regs.get8 R7.a.reg) = true ∧ s.room (s.ioDelay s.regs.bc + 4)) ∧
    (let s := edge 4;
      Instr.out_atC_0.form = .outC0 ∧ s.calmOut s.regs.bc 0x00 = true ∧ s.room (s.ioDelay s.regs.bc + 4)) := by
  unfold State.room; decide +kernel

theorem witness_BlockInput :
    (let s := edge 13;
      Instr.inir.form = .inBlock .up true ∧ s.calmExec Instr.inir.form = true ∧ s.execTime Instr.inir.form = 13 ∧
        s.room (s.execTime Instr.inir.form) ∧ s.regs.b - 1 ≠ 0) ∧
    (let s := (edge 13).withRegs fun g => { g with b := 1 };
      Instr.indr.form = .inBlock .down true ∧ s.calmExec Instr.indr.form = true ∧ s.room (s.execTime Instr.indr.form) ∧ ¬s.regs.b - 1 ≠ 0) ∧
    (let s := (edge 8).withRegs fun g => { g with b := 0 };
      Instr.ind.form = .inBlock .down false ∧ s.calmExec Instr.ind.form = true ∧ s.room (s.execTime Instr.ind.form)) := by
  unfold State.room; decide +kernel

theorem witness_BlockOutput :
    (let s := edge 13;
      Instr.otir.form = .outBlock .up true ∧ s.calmExec Instr.otir.form = true ∧ s.execTime Instr.otir.form = 13 ∧
        s.room (s.execTime Instr.otir.form) ∧ s.regs.b - 1 ≠ 0) ∧
    (let s := (edge 13).withRegs fun g => { g with b := 1 };
      Instr.otdr.form = .outBlock .down true ∧ s.calmExec Instr.otdr.form = true ∧ s.room (s.execTime Instr.otdr.form) ∧ ¬s.regs.b - 1 ≠ 0) ∧
    (let s := (edge 8).withRegs fun g => { g with b := 0 };
      Instr.outd.form = .outBlock .down false ∧ s.calmExec Instr.outd.form = true ∧ s.room (s.execTime Instr.outd.form)) := by
  unfold State.room; decide +kernel

theorem witness_EveryInstructionCompletes :
    ((edge 0).calmExec Instr.nop.form = true ∧ (edge 0).room ((edge 0).execTime Instr.nop.form)) ∧
    ((edge 15).calmExec Instr.ex_atSP_HL.form = true ∧ (edge 15).room ((edge 15).execTime Instr.ex_atSP_HL.form)) ∧
    ((edge 13).calmExec Instr.otir.form = true ∧ (edge 13).room ((edge 13).execTime Instr.otir.form)) := by
  unfold State.room; decide +kernel

/-! ## Steps -/

/-- Whether an outcome is a next state that `p` holds of. -/
def isNext (o : Host.Outcome State Fault Refusal) (p : State → Bool) : Bool :=
  match o with
  | .next t => p t
  | _ => false

/-- Whether an outcome is the fault `f`. -/
def isFault (f : Fault) (o : Host.Outcome State Fault Refusal) : Bool :=
  match o with
  | .fault g => decide (g = f)
  | _ => false

/-- Whether an outcome is the refusal `r`. -/
def isRefused (r : Refusal) (o : Host.Outcome State Fault Refusal) : Bool :=
  match o with
  | .refused q => decide (q = r)
  | _ => false

/-- Whether an action ends well. -/
def isOk {α : Type} (r : EStateM.Result (Stop) State α) : Bool :=
  match r with
  | .ok _ _ => true
  | .error _ _ => false

/-- A run at the last address with `bytes` there and `k` T-states of room. -/
def runAt (b : Bool) (bytes : List Byte) (k : Int) : State :=
  let s := (edge k).storeFetches 0xFFFF bytes
  { s with
    phase := .running b
    targetCc := 2147483647
    targetIc := 4294967295
    regs := { s.regs with pc := 0xFFFF } }

theorem witness_SoundnessKept :
    (runAt true [0x34] 11).Inv ∧ isNext (step (runAt true [0x34] 11)) (fun _ => true) = true := by
  unfold State.Inv; decide +kernel

/-- Three links, the last of which wants. -/
def threeLinks : State :=
  { State.reset with chain := [{ want := true, hidden := true }, { hidden := true }, { want := true }] }

theorem witness_PagingSignalsKept :
    pagingOk threeLinks.chain = true ∧ (1 < threeLinks.chain.length ∧ isOk (startWanting 1 threeLinks) = true) ∧
      (2 < threeLinks.chain.length ∧ isOk (stopWanting 2 threeLinks) = true) := by decide +kernel

theorem witness_EngineFrame : exec .nop State.reset = .next State.reset := by rfl

/-- The part of the hypotheses of `StepRunsDecodedInstruction` before its clauses. -/
def stepHyps (s : State) (b : Bool) (i : Instr) (rest : List Byte) : Prop :=
  s.atExecute b ∧ s.regs.halted = false ∧ decode (s.bytesAt s.regs.pc) = .ok (i, rest) ∧ s.calmInstr i.form = true ∧
    s.room (fetchTime i.form)

/-- A device whose output handler attempts a host operation. -/
def refusingDevice : Link where
  handlers := { output := some (.script [{ effects := [.hostOnly] }]) }

/-- `OUT (0xFE),A` with that device attached. -/
def outState : State := { runAt true [0xD3, 0xFE] 11 with chain := [refusingDevice] }

theorem witness_StepRunsDecodedInstruction_next :
    stepHyps (runAt true [0xFB] 4) true .ei [0x00, 0x00, 0x00] ∧
      isNext (exec .ei ((runAt true [0xFB] 4).fetched .ei))
        (fun t => decide (t.latch = none) && decide (t.ic < 4294967295)) = true := by
  unfold stepHyps State.atExecute State.atBoundary State.room
  refine ⟨⟨⟨by decide +kernel, by decide +kernel, by decide +kernel, .inr (.inl (by decide +kernel))⟩, by decide +kernel,
    by rfl, by decide +kernel, by decide +kernel⟩, by decide +kernel⟩

theorem witness_StepRunsDecodedInstruction_prefix :
    stepHyps (runAt false [0xDD, 0x00] 8) false .ddIgnored_NOP [0x00, 0x00, 0x00] ∧
      isNext (exec .ddIgnored_NOP ((runAt false [0xDD, 0x00] 8).fetched (.ignored .ix 0x00)))
        (fun t => decide (t.latch = some 0x00)) = true := by
  unfold stepHyps State.atExecute State.atBoundary State.room
  refine ⟨⟨⟨by decide +kernel, by decide +kernel, by decide +kernel, .inr (.inl (by decide +kernel))⟩, by decide +kernel,
    by rfl, by decide +kernel, by decide +kernel⟩, by decide +kernel⟩

theorem witness_StepRunsDecodedInstruction_fault :
    stepHyps (runAt true [0x46] 4) true .ld_B_atHL [0x00, 0x00, 0x00] ∧
      isFault .cycleCounterOverflow (exec .ld_B_atHL ((runAt true [0x46] 4).fetched (.ldRHL .b))) = true := by
  unfold stepHyps State.atExecute State.atBoundary State.room
  refine ⟨⟨⟨by decide +kernel, by decide +kernel, by decide +kernel, .inr (.inl (by decide +kernel))⟩, by decide +kernel,
    by rfl, by decide +kernel, by decide +kernel⟩, by decide +kernel⟩

theorem witness_StepRunsDecodedInstruction_refused :
    stepHyps outState true (.out_atn_A 0xFE) [0x00, 0x00] ∧
      isRefused .notSuspended (exec (.out_atn_A 0xFE) (outState.fetched (.outNA 0xFE))) = true := by
  unfold stepHyps State.atExecute State.atBoundary State.room
  refine ⟨⟨⟨by decide +kernel, by decide +kernel, by decide +kernel, .inr (.inl (by decide +kernel))⟩, by decide +kernel,
    by rfl, by decide +kernel, by decide +kernel⟩, by decide +kernel⟩

theorem witness_PrefixChainHasNoBoundary :
    Instr.fdIgnored_prefix_DD.form = .ignored .iy 0xDD ∧
      (let s := { runAt true [] 4 with latch := some 0xDD }
      s.faulted = none ∧ s.refused = none ∧ s.phase = .running true ∧ s.latch = some 0xDD) := by decide +kernel

theorem witness_BoundaryReturnOrder :
    ({ State.reset with faulted := some .negativeWait }).faulted = some .negativeWait ∧
    (let s : State := { State.reset with refused := some .im0NotRst }
    s.faulted = none ∧ s.refused = some .im0NotRst) ∧
    (let s := runAt true [] 0
    s.faulted = none ∧ s.refused = none ∧ s.phase = .running true ∧ s.latch = none ∧ s.pendingExit = none ∧
      s.replayMode ≠ .outOfSync ∧ s.targetCc ≤ s.cc) ∧
    (let s := { runAt false [] 1 with ic := 4294967295 }
    s.faulted = none ∧ s.refused = none ∧ s.phase = .running false ∧ s.latch = none ∧ s.pendingExit = none ∧
      s.replayMode ≠ .outOfSync ∧ s.cc < s.targetCc ∧ s.targetIc ≤ s.ic) ∧
    (let s := { runAt true [] 0 with pendingExit := some (.readBreakpoint 0xFFFF), replayMode := .outOfSync }
    s.faulted = none ∧ s.refused = none ∧ s.phase = .running true ∧ s.latch = none ∧
      s.pendingExit = some (.readBreakpoint 0xFFFF)) ∧
    (let s := { runAt true [] 0 with replayMode := .outOfSync }
    s.faulted = none ∧ s.refused = none ∧ s.phase = .running true ∧ s.latch = none ∧ s.pendingExit = none ∧
      s.replayMode = .outOfSync) := by decide +kernel

/-- A run at 0xFFFF whose Cell there has an exec breakpoint. -/
def atBreakpoint : State :=
  let s := runAt true [] 4
  { s with
    mode := { brk := true }
    mem := s.mem.setFlags { block := 1, base := 0xFFFF } { breakExec := true } }

theorem witness_ExecBreakpointReported :
    atBreakpoint.atBoundary true ∧ atBreakpoint.regs.nmiPending = false ∧ atBreakpoint.intDue = false ∧
      atBreakpoint.regs.halted = false ∧ atBreakpoint.mode.brk = true ∧
      atBreakpoint.execBpSkip ≠ some atBreakpoint.regs.pc ∧
      atBreakpoint.readRef atBreakpoint.regs.pc = some { block := 1, base := 0xFFFF } ∧
      atBreakpoint.mem.cell? { block := 1, base := 0xFFFF } = some { data := 0x00, flags := { breakExec := true } } := by
  unfold State.atBoundary; decide +kernel

/-- A halted CPU at the last byte of memory. -/
def halted (k : Int) : State := (runAt true [0x76] k).withRegs fun g => { g with halted := true }

theorem witness_HaltedStep :
    (halted 4).atExecute true ∧ (halted 4).regs.halted = true ∧ (halted 4).calmFetch (halted 4).regs.pc = true ∧
      (halted 4).room 4 ∧ (halted 4).ic < 4294967295 := by
  unfold State.atExecute State.atBoundary State.room
  exact ⟨⟨by decide +kernel, by decide +kernel, by decide +kernel, .inl (by decide +kernel)⟩, by decide +kernel⟩

theorem witness_NmiEntry :
    let s := (halted 11).withRegs fun g => { g with nmiPending := true }
    s.atBoundary true ∧ s.regs.nmiPending = true ∧ s.calmPush = true ∧ s.room 11 := by
  unfold State.atBoundary State.room; decide +kernel

/-- A run with the interrupt line active throughout, the byte `ack` on the bus at every acknowledge, in mode `m`. -/
def interrupted (m : IntMode) (ack : Byte) (k : Int) : State :=
  let s := (halted k).withRegs fun g => { g with iff1 := true, im := m }
  { s with cfg := { s.cfg with
    intLine := [{ start := -2147483648, stop := 2147483648, val := true }]
    intAck := [{ start := -2147483648, stop := 2147483648, val := ack }] } }

theorem witness_InterruptEntry :
    (let s := interrupted .im0 0x00 4
    s.atBoundary true ∧ s.regs.nmiPending = false ∧ s.intDue = true ∧ s.regs.im = .im0 ∧
      s.cfg.intAckByte s.cc &&& 0xC7 ≠ 0xC7) ∧
    (let s := interrupted .im0 0xFF 13
    s.atBoundary true ∧ s.regs.nmiPending = false ∧ s.intDue = true ∧ s.regs.im = .im0 ∧
      s.cfg.intAckByte s.cc &&& 0xC7 = 0xC7 ∧ s.calmPush = true ∧ s.room 13) ∧
    (let s := interrupted .im1 0xFF 13
    s.atBoundary true ∧ s.regs.nmiPending = false ∧ s.intDue = true ∧ s.regs.im = .im1 ∧ s.calmPush = true ∧ s.room 13) ∧
    (let s := interrupted .im2 0xFF 19
    s.atBoundary true ∧ s.regs.nmiPending = false ∧ s.intDue = true ∧ s.regs.im = .im2 ∧ s.calmPush = true ∧
      s.calmRead (mkWord s.regs.i (s.cfg.intAckByte s.cc)) = true ∧
      s.calmRead (mkWord s.regs.i (s.cfg.intAckByte s.cc) + 1) = true ∧ s.room 19) := by
  unfold State.atBoundary State.room; decide +kernel

theorem witness_StackBreakpoint :
    (let s := { State.reset with stackBreak := some 0xFFFE, mode := { brk := true } }
    s.mode.brk = true ∧ (0xFFFE : Word).toNat < s.regs.sp.toNat ∧ s.pendingExit = none) ∧
    (let s := { State.reset with
      stackBreak := some 0xFFFE, mode := { brk := true }, pendingExit := some (.readBreakpoint 0x0000) }
    s.mode.brk = true ∧ (0xFFFE : Word).toNat < s.regs.sp.toNat ∧ s.pendingExit = some (.readBreakpoint 0x0000)) ∧
    (let s := { State.reset with stackBreak := some 0xFFFF, mode := { brk := true } }
    s.regs.sp.toNat ≤ (0xFFFF : Word).toNat) ∧ State.reset.stackBreak = none := by decide +kernel

/-! ## Bus cycles and storage -/

/-- A mapping of the last page with the wait table `[6]`, or with the waits of the configuration. -/
def lastMapping (wait : Option WaitTable) (shadow : Option Ref) : Mapping :=
  { defaultMapping 49152 with wait := wait, shadow := shadow }

/-- A state whose Cell for 0xFFFF carries every flag but the handlers', with `lastMapping` and `k` T-states of room;
`addWaitCycles` adds `extra`. -/
def flagged (wait : Option WaitTable) (shadow : Option Ref) (extra k : Int) : State :=
  { State.reset with
    cc := 2147483647 - k
    mode := { wait := true, brk := true, patch := true, mmio := true, video := true, log := true }
    mem := State.reset.mem.setFlags { block := 1, base := 0xFFFF }
      { wait := true, breakRead := true, breakWrite := true, videoTrack := true, logAccess := true }
    pages := State.reset.pages.set 3 [lastMapping wait shadow]
    cfg := { State.reset.cfg with
      waits := [{ start := -2147483648, stop := 2147483648, aStart := 0, aStop := 65536, extra := extra }] } }

/-- The flags of `flagged` on the Cell of 0xFFFF. -/
def allButHandlers : CellFlags :=
  { wait := true, breakRead := true, breakWrite := true, videoTrack := true, logAccess := true }

theorem witness_ReadCycle :
    (let s := flagged none none (-1) 3
    activeMapping s.cfg s.pages 0xFFFF = some (lastMapping none none) ∧
      s.mem.cell? ((lastMapping none none).read.at s.cfg 0xFFFF) = some { data := 0x00, flags := allButHandlers } ∧
      (s.mode.mmio && allButHandlers.mmioRead) = false ∧
      (s.mode.patch && allButHandlers.patchOnExec) = false ∧
      s.waitTime 0xFFFF (lastMapping none none) allButHandlers < 0) ∧
    (let s := flagged (some { first := 6 }) none 0 9
    activeMapping s.cfg s.pages 0xFFFF = some (lastMapping (some { first := 6 }) none) ∧
      s.mem.cell? ((lastMapping (some { first := 6 }) none).read.at s.cfg 0xFFFF) =
        some { data := 0x00, flags := allButHandlers } ∧
      (s.mode.mmio && allButHandlers.mmioRead) = false ∧
      s.waitTime 0xFFFF (lastMapping (some { first := 6 }) none) allButHandlers = 6 ∧ s.room (6 + 3) ∧ s.room (6 + 1)) := by
  unfold State.room; decide +kernel

theorem witness_FetchCycle :
    (let s := flagged none none (-1) 3
    activeMapping s.cfg s.pages 0xFFFF = some (lastMapping none none) ∧
      s.mem.cell? ((lastMapping none none).read.at s.cfg 0xFFFF) = some { data := 0x00, flags := allButHandlers } ∧
      (s.mode.mmio && allButHandlers.mmioRead) = false ∧ (s.mode.patch && allButHandlers.patchOnExec) = false ∧
      s.waitTime 0xFFFF (lastMapping none none) allButHandlers < 0) ∧
    (let s := flagged none none 0 4
    s.waitTime 0xFFFF (lastMapping none none) allButHandlers = 0 ∧ s.room (0 + 4)) := by
  unfold State.room; decide +kernel

theorem witness_WriteCycle :
    (let s := flagged none none (-1) 3
    activeMapping s.cfg s.pages 0xFFFF = some (lastMapping none none) ∧
      s.mem.cell? ((lastMapping none none).write.at s.cfg 0xFFFF) = some { data := 0x00, flags := allButHandlers } ∧
      (s.mode.mmio && allButHandlers.mmioWrite) = false ∧ s.waitTime 0xFFFF (lastMapping none none) allButHandlers < 0) ∧
    (let s := flagged none none 0 3
    s.waitTime 0xFFFF (lastMapping none none) allButHandlers = 0 ∧ s.room (0 + 3) ∧ (lastMapping none none).shadow = none) ∧
    (let m := lastMapping (some { first := 6 }) (some { block := 1, base := 0 })
    let s := flagged (some { first := 6 }) (some { block := 1, base := 0 }) 0 9
    activeMapping s.cfg s.pages 0xFFFF = some m ∧
      s.mem.cell? (m.write.at s.cfg 0xFFFF) = some { data := 0x00, flags := allButHandlers } ∧
      s.waitTime 0xFFFF m allButHandlers = 6 ∧ s.room (6 + 3) ∧ m.shadow = some { block := 1, base := 0 } ∧
      s.mem.cell? (({ block := 1, base := 0 } : Ref).at s.cfg 0xFFFF) = some { data := 0x00, flags := {} }) := by
  unfold State.room; decide +kernel

/-- The reset state with the last page's mapping changed. -/
def lastPage (m : Mapping) : State := { State.reset with pages := State.reset.pages.set 3 [m] }

theorem witness_StoreReadsBack :
    (let s := lastPage (lastMapping none (some { block := 1, base := 0 }))
    s.Inv ∧ s.readRef 0xFFFF = some { block := 1, base := 0xFFFF } ∧
      s.writeRef 0xFFFF = some { block := 1, base := 0xFFFF } ∧
      s.readRef 0x3FFF = some { block := 1, base := 0x3FFF } ∧ s.shadowRef 0xFFFF = some { block := 1, base := 0x3FFF } ∧
      s.readRef 0x3FFE = some { block := 1, base := 0x3FFE } ∧ s.writeRef 0xFFFF ≠ some { block := 1, base := 0x3FFE } ∧
      s.shadowRef 0xFFFF ≠ some { block := 1, base := 0x3FFE }) ∧
    (let s := lastPage { defaultMapping 49152 with write := { block := sinkId, base := 0 } }
    s.Inv ∧ s.readRef 0xFFFF = some { block := 1, base := 0xFFFF } ∧
      s.writeRef 0xFFFF = some { block := sinkId, base := 0x3FFF } ∧ s.shadowRef 0xFFFF = none) := by
  unfold State.Inv; decide +kernel

/-- The reset state with a second link, which wants or not, whose overlay has the handle `h` and whose own mapping the handle
`k`, both on the last page. -/
def overlaid (h k : Nat) (want : Bool) : State :=
  { State.reset with
    nextHandle := 3
    pages := State.reset.pages.set 3
      [{ defaultMapping 0 with handle := h }, { defaultMapping 16384 with handle := k }, defaultMapping 49152]
    chain := [{ defaultController with want := true, hidden := want, maps := [(0, 0)] },
      { want := want, maps := [(7, k)], ovl := [h] }] }

theorem witness_MapThenUnmap :
    (∀ stack ∈ State.reset.pages, ∀ x ∈ stack, x.handle < State.reset.nextHandle) ∧
      (∀ stack ∈ State.reset.pages, stack ≠ []) ∧
      (∀ stack ∈ State.reset.pages, ∀ x ∈ stack, x.handle ≠ 1) ∧
      (∃ stack ∈ State.reset.pages, stack ≠ [] ∧ ∀ x ∈ stack, x.handle = 0) ∧
      (let s := overlaid 1 2 true
      (∃ stack ∈ s.pages, ∃ x ∈ stack, x.handle = 1) ∧ ∀ stack ∈ s.pages, stack ≠ [] → ∃ x ∈ stack, x.handle ≠ 1) ∧
      ({ defaultMap with len := 65535 } : MapReq).ok State.reset.cfg State.reset.mem = false ∧
      defaultMap.ok State.reset.cfg State.reset.mem = true ∧ defaultMap.read.block ≠ sinkId ∧
      State.reset.pages.length = State.reset.cfg.nPages := by decide +kernel

/-! ## Ports and replay input -/

/-- A device that drives bit 0 of every port low. -/
def lowBit : Link where
  handlers := { input := some (.script [{ v := some 0x00, drv := 0x01 }]) }

theorem witness_InputMerge :
    let s := { State.reset with chain := State.reset.chain ++ [lowBit] }
    (∀ l ∈ s.chain, (l.answerIn s.cc 0xFFFF).effects = []) ∧
      (∃ l ∈ s.chain, (l.answerIn s.cc 0xFFFF).drv.getLsbD 0 = true) ∧
      (∀ l ∈ s.chain, (l.answerIn s.cc 0xFFFF).drv.getLsbD 7 = false) := by decide +kernel

/-- A replay of one frame with one input byte, and, if `snap`, a snapshot of the reset state. -/
def oneFrame (snap : Option Snapshot) : ReplayFrame := { length := 4, inputs := [0xAA], snapshot := snap }

/-- Playing that frame, at byte `k`. -/
def playing (k : Nat) : State :=
  { State.reset with replayMode := .playing, stream := [oneFrame none], byteIx := k }

theorem witness_ReplayInput :
    ((playing 0).replayMode = .playing ∧ (playing 0).stream[(playing 0).frameIx]? = some (oneFrame none) ∧
      (oneFrame none).inputs[(playing 0).byteIx]? = some 0xAA) ∧
    ((playing 1).replayMode = .playing ∧ (playing 1).stream[(playing 1).frameIx]? = some (oneFrame none) ∧
      (oneFrame none).inputs.length ≤ (playing 1).byteIx) ∧
    ({ State.reset with replayMode := .recording }).replayMode = .recording ∧ State.reset.replayMode = .idle := by
  decide +kernel

theorem witness_EffectRules :
    State.reset.chain[0]? = some { defaultController with want := true, maps := [(0, 0)] } ∧
      ({ defaultController with want := true, maps := [(0, 0)] } : Link).handleOf 1 = none := by decide +kernel

/-! ## Scheduler and replay -/

/-- The reset state at cycle `cc`, with a contended window from 100 to 200, a flyback that answers `r`, and the audio
boundary and the target where named. -/
def scheduled (cc r audioCc target : Int) : State :=
  { State.reset with
    cc := cc
    audioCc := audioCc
    target := target
    phase := .scheduling
    cfg := { State.reset.cfg with
      cwStart := 100, cwEnd := 200
      flyback := [{ start := -2147483648, stop := 2147483648, val := r }]
      audioTime := [{ start := -2147483648, stop := 2147483648, val := 0 }] } }

theorem witness_FrameAndAudioBoundaries :
    (let s := scheduled 70000 199 0 0
    s.cfg.geometryOk (s.cfg.frameFlyback s.cc) = false) ∧
    (let s := scheduled 70000 200 0 0
    s.cfg.geometryOk (s.cfg.frameFlyback s.cc) = true ∧
      (∀ l ∈ s.chain, (l.handlers.frameEnd.call (.frameEnd l.dev s.cc)).effects = []) ∧
      ∀ l ∈ s.chain,
        (l.handlers.audioBlockEnd.call (.audioBlockEnd l.dev (s.cfg.audioTimeAt s.audioCc))).effects = []) := by
  decide +kernel

/-- A state in a replay mode with two frames, the second with a snapshot or without. -/
def twoFrames (m : ReplayMode) (snap : Option Snapshot) (k : Nat) : State :=
  { State.reset with replayMode := m, stream := [oneFrame none, oneFrame snap], frameIx := k }

theorem witness_ReplayAtFlyback :
    State.reset.replayMode = .idle ∧ (twoFrames .recording none 0).replayMode = .recording ∧
    (let s := twoFrames .playing none 1
    s.replayMode = .playing ∧ s.frameIx + 1 = s.stream.length) ∧
    (let s := twoFrames .playing none 0
    s.replayMode = .playing ∧ s.stream[s.frameIx + 1]? = some (oneFrame none) ∧ (oneFrame none).snapshot = none) ∧
    (let snap := State.reset.save
    let s := twoFrames .playing (some snap) 0
    s.stream[s.frameIx + 1]? = some (oneFrame (some snap)) ∧
      (s.regs = snap.regs ∧ s.cc = snap.cc ∧ s.ic = snap.ic ∧ s.cpf = snap.cpf ∧
        s.mem.map (fun b => (b.id, b.len, b.data)) = snap.blocks.map (fun b => (b.id, b.len, b.data)))) ∧
    (let snap := { State.reset.save with ic := 1 }
    let s := twoFrames .playing (some snap) 0
    s.stream[s.frameIx + 1]? = some (oneFrame (some snap)) ∧ s.ic ≠ snap.ic) := by decide +kernel

theorem witness_SchedulerLoopLive :
    (let s := scheduled 70000 70000 0 0
    s.replayMode = .idle ∧ s.cpf ≤ s.cc) ∧
    (let s := scheduled 69999 70000 69999 0
    s.cc < s.cpf ∧ s.audioCc ≤ s.cc) ∧
    (let s := scheduled 69999 70000 70000 69999
    s.cc < s.cpf ∧ s.cc < s.audioCc ∧ s.target ≤ s.cc) ∧
    (let s := scheduled 99 70000 70000 100
    s.cc < s.cpf ∧ s.cc < s.audioCc ∧ s.cc < s.target ∧ s.cc < s.cfg.cwStart) ∧
    (let s := { scheduled 100 70000 70000 101 with replayMode := .recording }
    s.replayMode = .recording ∧ s.cc < s.cpf ∧ s.cc < s.audioCc ∧ s.cc < s.target ∧ s.cfg.cwStart ≤ s.cc ∧
      s.cc < s.cfg.cwEnd) ∧
    (let s := scheduled 200 70000 70000 201
    s.cc < s.cpf ∧ s.cc < s.audioCc ∧ s.cc < s.target ∧ s.cfg.cwStart ≤ s.cc ∧ s.cfg.cwEnd ≤ s.cc) := by decide +kernel

/-- `scheduled` in playback of one frame of 4 instructions and one input, after `ic` instructions and `k` inputs. -/
def replayed (cc : Int) (ic k : Nat) : State :=
  { scheduled cc 70000 2147483647 2147483647 with
    replayMode := .playing, stream := [oneFrame none], ic := ic, byteIx := k }

theorem witness_SchedulerLoopReplay :
    ({ State.reset with replayMode := .outOfSync }).replayMode = .outOfSync ∧
    ({ State.reset with replayMode := .endOfFile }).replayMode = .endOfFile ∧
    (let s := replayed 70000 4 1
    s.replayMode = .playing ∧ s.stream[s.frameIx]? = some (oneFrame none) ∧ s.ic = (oneFrame none).length ∧
      s.cpf ≤ s.cc ∧ s.byteIx = (oneFrame none).inputs.length) ∧
    (let s := replayed 69999 4 1
    s.ic = (oneFrame none).length ∧ s.cc < s.cpf) ∧
    (let s := replayed 70000 4 0
    s.ic = (oneFrame none).length ∧ s.byteIx ≠ (oneFrame none).inputs.length) ∧
    (let s := replayed 70000 5 0
    s.ic ≠ (oneFrame none).length ∧ s.cpf + s.cfg.replaySlack ≤ s.cc) ∧
    (let s : State := { replayed 69999 3 0 with audioCc := 69999 }
    s.ic ≠ (oneFrame none).length ∧ s.cc < s.cpf + s.cfg.replaySlack ∧ s.audioCc ≤ s.cc) ∧
    (let s : State := { replayed 69999 3 0 with target := 69999 }
    s.ic ≠ (oneFrame none).length ∧ s.cc < s.cpf + s.cfg.replaySlack ∧ s.cc < s.audioCc ∧ s.target ≤ s.cc) ∧
    (let s := replayed 99 3 0
    s.cc < s.audioCc ∧ s.cc < s.target ∧ s.cc < s.cfg.cwStart) ∧
    (let s := replayed 100 3 0
    s.cc < s.audioCc ∧ s.cc < s.target ∧ s.cfg.cwStart ≤ s.cc ∧ s.cc < s.cfg.cwEnd) ∧
    (let s := replayed 69999 3 0
    s.ic ≠ (oneFrame none).length ∧ s.cc < s.cpf + s.cfg.replaySlack ∧ s.cc < s.audioCc ∧ s.cc < s.target ∧
      s.cfg.cwStart ≤ s.cc ∧ s.cfg.cwEnd ≤ s.cc) := by
  decide +kernel

theorem witness_ReplayTransitions :
    ({ State.reset with replayMode := .playing }).replayMode ≠ .idle ∧
    (let stream := [oneFrame none]
    ∀ fr, stream[0]? = some fr → fr.snapshot = none) ∧
    (let stream := [oneFrame none, oneFrame (some State.reset.save)]
    State.reset.replayMode = .idle ∧ stream[1]? = some (oneFrame (some State.reset.save)) ∧
      State.reset.loadOk State.reset.save = true) := by
  refine ⟨by decide +kernel, ?_, by decide +kernel⟩
  rintro stream fr h
  obtain rfl : oneFrame none = fr := by simpa [stream] using h
  rfl

/-! ## The host's operations -/

theorem witness_SaveThenLoad :
    State.reset.Inv ∧ pagingOk State.reset.chain = true ∧ (∀ l ∈ State.reset.chain, l.badPattern = false) ∧ State.reset.cfg.geometryOk State.reset.cpf = true ∧
      inI32 State.reset.cc = true ∧ State.reset.ic < 4294967296 ∧
      State.reset.loadOk { State.reset.save with cc := 2147483648 } = false ∧
      State.reset.mem.cell? { block := 1, base := 65535 } = some { data := 0x00, flags := {} } := by
  unfold State.Inv; decide +kernel

theorem witness_AttachRules :
    ({ lowBit with inBits := 0x0001 } : Link).badPattern = true ∧ lowBit.badPattern = false ∧
      State.reset.chain.length < 2 ∧ 0 < 1 ∧ 1 ≤ State.reset.chain.length ∧
      (lowBit.handlers.powerOn.call (.powerOn lowBit.dev State.reset.cc)).effects = [] := by decide +kernel

/-- The state in which the link of `overlaid 1 2 true` has stopped wanting. -/
def released : State :=
  { overlaid 1 2 true with
    chain := [{ defaultController with want := true, maps := [(0, 0)] }, { maps := [(7, 2)], ovl := [1] }] }

theorem released_eq : stopWanting 1 (overlaid 1 2 true) = .ok () released := by
  have h : (match stopWanting 1 (overlaid 1 2 true) with
    | .ok _ t => decide (t = released)
    | .error _ _ => false) = true := by decide +kernel
  split at h
  · next t e => rw [e, of_decide_eq_true h]
  · cases h

theorem witness_AttachRules_detach_wanting :
    0 < 1 ∧ (overlaid 1 2 true).chain[1]? = some { want := true, maps := [(7, 2)], ovl := [1] } ∧
      stopWanting 1 (overlaid 1 2 true) = .ok () released ∧ [1, 2].Nodup ∧
      (∀ h ∈ [1, 2], ∃ stack ∈ released.pages, ∃ x ∈ stack, x.handle = h) ∧
      ∀ stack ∈ released.pages, ∃ x ∈ stack, x.handle ∉ [1, 2] :=
  ⟨by decide, by decide +kernel, released_eq, by decide, by decide +kernel, by decide +kernel⟩

theorem witness_AttachRules_detach_last :
    (overlaid 0 1 false).chain[1]? = some { want := false, maps := [(7, 1)], ovl := [0] } ∧ [0, 1].Nodup ∧
      (∀ h ∈ [0, 1], ∃ stack ∈ (overlaid 0 1 false).pages, ∃ x ∈ stack, x.handle = h) ∧
      ∃ stack ∈ (overlaid 0 1 false).pages, stack ≠ [] ∧ ∀ x ∈ stack, x.handle ∈ [0, 1] := by decide +kernel

/-- The reset state with one more block, to which no mapping refers. -/
def spareBlock : Block where
  id := 2
  len := 1

theorem witness_StorageLifetime :
    (State.reset.mem.block? sinkId = some { id := sinkId, len := 16384 } ∧ 0 < 1) ∧
    (State.reset.mem.block? 1 = some defaultRam ∧ ∃ stack ∈ State.reset.pages, ∃ x ∈ stack, x.refersTo 1 = true) ∧
    (let s := { State.reset with mem := State.reset.mem ++ [spareBlock] }
    s.mem.block? 2 = some spareBlock ∧ 2 ≠ sinkId ∧ ∀ stack ∈ s.pages, ∀ x ∈ stack, x.refersTo 2 = false) := by
  decide +kernel

theorem witness_ResetOperation :
    ∀ l ∈ State.reset.chain,
      (l.handlers.reset.call (.reset l.dev (State.reset.cfg.audioTimeAt State.reset.cc) State.reset.cc)).effects = [] := by
  decide +kernel

end Sys2Proof.Tests
end

