-- ==== Sys2Proof/Tests/Vectors.lean ====
section
/-! SUPPORT. Rows of 95_test_vectors.md about entries, waits, breakpoints, callouts, ports, paging, the scheduler and the
host, each as one step or one host operation. Every expected value is that file's. -/

namespace Sys2Proof.Tests

set_option Elab.async false

open Sys2Proof.Machine

/-- A collaborator piece for every cycle. -/
def always {α : Type} (v : α) : List (CcPiece α) := [{ start := -2147483648, stop := 2147483648, val := v }]

/-- Every flag class in force. -/
def allModes : ModeFlags := { wait := true, brk := true, patch := true, mmio := true, video := true, log := true }

/-- The default start state of section 2.0 inside a run, with `bytes` at 0x8000. -/
def start (g : Regs → Regs) (bytes : List Byte) : State :=
  let s := State.reset.storeFetches 0x8000 bytes
  { s with
    phase := .running false
    targetCc := 1000
    targetIc := 4294967295
    mode := allModes
    regs := g { sp := 0xFFFF, pc := 0x8000 }
    cfg := { s.cfg with
      floatingBus := always 0xFF
      intLine := always false
      intAck := always 0xFF
      waits := [{ start := -2147483648, stop := 2147483648, aStart := 0, aStop := 65536, extra := 0 }] } }

/-! ## Interrupt and NMI entry (2.11) -/

/-- The interrupt line active, and `ack` on the bus. -/
def asking (s : State) (ack : Byte) : State := { s with cfg := { s.cfg with intLine := always true, intAck := always ack } }

/-- The start registers of section 2.11. -/
def enabled (g : Regs) : Regs := { g with sp := 0x9000, iff1 := true, iff2 := true }

/-- What an entry leaves: PC, which is also in WZ, SP, the pushed word, IFF1 and IFF2, R, and the cycles. -/
def entered (s : State) (pc sp pushed : Word) (iff1 iff2 : Bool) (r : Byte) (cc : Int) : Bool :=
  isNext (step s) fun t =>
    decide (t.regs.pc = pc) && decide (t.regs.wz = pc) && decide (t.regs.sp = sp) && decide (t.wordAt 0x8FFE = pushed) &&
      t.regs.iff1 == iff1 && t.regs.iff2 == iff2 && decide (t.regs.r = r) && decide (t.cc = cc) && decide (t.ic = 0) &&
      !t.regs.nmiPending

theorem test_nmi :
    entered (start (fun g => { enabled g with nmiPending := true }) []) 0x0066 0x8FFE 0x8000 false true 0x01 11 = true := by
  decide +kernel
theorem test_int_im0 :
    entered (asking (start enabled []) 0xD7) 0x0010 0x8FFE 0x8000 false false 0x01 13 = true := by decide +kernel
theorem test_int_im0_not_rst : isRefused .im0NotRst (step (asking (start enabled []) 0x00)) = true := by decide +kernel
theorem test_int_im1 :
    entered (asking (start (fun g => { enabled g with im := .im1 }) []) 0xFF) 0x0038 0x8FFE 0x8000 false false 0x01 13 =
      true := by decide +kernel
theorem test_int_im2 :
    entered (asking ((start (fun g => { enabled g with im := .im2, i := 0x90 }) []).storeFetches 0x90FF [0x00, 0x40]) 0xFF)
      0x4000 0x8FFE 0x8000 false false 0x01 19 = true := by decide +kernel
theorem test_int_wakes_halt :
    after (asking (start (fun g => { enabled g with im := .im1, halted := true }) [0x76]) 0xFF)
        (fun t => (t.regs.pc, t.wordAt 0x8FFE, t.regs.halted)) = some (0x0038, 0x8001, false) := by decide +kernel
theorem test_int_after_ei :
    after (asking (start (fun g => { enabled g with im := .im1, intBlock := true }) [0x00]) 0xFF)
        (fun t => (t.regs.pc, t.regs.intBlock, t.cc)) = some (0x8001, false, 4) := by decide +kernel
theorem test_halted_step :
    after (start (fun g => { g with halted := true }) [0x76]) (fun t => (t.regs.pc, t.regs.r, t.cc, t.ic)) =
      some (0x8000, 0x01, 4, 1) := by decide +kernel

/-! ## Wait states (S2, 2.12): the table `[0,0,1,1]` -/

/-- A page with that table. -/
def waitPage (s : State) (k : Nat) : State :=
  { s with pages := s.pages.modify k (·.map fun m => { m with wait := some { first := 0, rest := [0, 1, 1] } }) }

/-- The Cell of an address with flags. -/
def withFlags (s : State) (a : Nat) (f : CellFlags) : State := { s with mem := s.mem.setFlags { block := 1, base := a } f }

theorem test_wait_read :
    after (waitPage (withFlags { start (fun g => { g with h := 0xC0 }) [0x7E] with cc := 98 } 0xC000 { wait := true }) 3)
      (·.cc) = some 106 := by decide +kernel
theorem test_wait_fetch :
    after (waitPage (withFlags { start id [0x00] with cc := 3 } 0x8000 { wait := true }) 2) (·.cc) = some 8 := by decide +kernel
theorem test_wait_internal :
    after (waitPage (withFlags { start (fun g => { g with i := 0xC0 }) [0x03] with cc := 1 } 0xC001 { wait := true }) 3)
      (·.cc) = some 8 := by decide +kernel

/-! ## Breakpoints, callouts and memory classes (2.13) -/

theorem test_exec_breakpoint :
    after (withFlags (start id [0x00]) 0x8000 { breakExec := true })
        (fun t => (t.results, t.regs.pc, t.execBpSkip, t.cc)) =
      some ([.runReturned (.execBreakpoint 0x8000)], 0x8000, some 0x8000, 0) := by decide +kernel
theorem test_write_breakpoints_first_kept :
    after (withFlags (withFlags (start id [0x22, 0x00, 0x90]) 0x9000 { breakWrite := true }) 0x9001 { breakWrite := true })
      (fun t => (t.pendingExit, t.cc)) = some (some (.writeBreakpoint 0x9000), 16) := by decide +kernel
theorem test_stack_breakpoint :
    after { (start (fun g => { g with sp := 0x8FFE }) [0xC9]).storeFetches 0x8FFE [0x03, 0x80] with stackBreak := some 0x8FFF }
        (fun t => (t.pendingExit, t.stackBreak, t.regs.pc, t.cc)) =
      some (some (.stackBreakpoint 0x9000), none, 0x8003, 10) := by decide +kernel
theorem test_rom_write :
    (let s := start (fun g => { g with a := 0x55 }) [0x32, 0x00, 0x00]
    after { s with
      mem := s.mem ++ [{ id := 2, len := 16384, data := [(0, 0xF3)] }]
      pages := s.pages.set 0 [{ handle := 0, read := { block := 2, base := 0 }, write := { block := sinkId, base := 0 } }] }
      (fun t => (t.byteAt 0x0000, t.cc))) = some (0xF3, 13) := by decide +kernel
theorem test_shadow_write :
    (let s := start (fun g => { g with a := 0x66, h := 0x80, l := 0x10 }) [0x77]
    after { s with
      mem := s.mem ++ [{ id := 2, len := 16384 }]
      pages := s.pages.modify 2 (·.map fun m => { m with shadow := some { block := 2, base := 0 } }) }
      (fun t => (t.byteAt 0x8010, (t.mem.cell? { block := 2, base := 0x10 }).map (·.data), t.cc))) =
      some (0x66, some 0x66, 7) := by decide +kernel
theorem test_mmio_read :
    (let s := withFlags ((start id [0x3A, 0x00, 0x90]).storeFetches 0x9000 [0x0F]) 0x9000 { mmioRead := true }
    after { s with chain := s.chain ++ [{ handlers := { mmioRead := some (.script [{ v := some 0xF0 }]) } }] }
      (fun t => (t.regs.a, t.byteAt 0x9000))) = some (0xF0, 0x0F) := by decide +kernel
theorem test_patch :
    (let s := withFlags (start id [0xC3, 0x00, 0x40]) 0x8000 { patchOnExec := true }
    after { s with chain := s.chain ++ [{ handlers := { patch := some (.script [{ v := some 0x00 }]) } }] }
      (fun t => (t.regs.pc, t.byteAt 0x8000, t.cc))) = some (0x8001, 0xC3, 4) := by decide +kernel
theorem test_access_log :
    after (withFlags (withFlags (start (fun g => { g with h := 0x90 }) [0x7E]) 0x8000 { logAccess := true }) 0x9000
        { logAccess := true })
      (·.accessLog) = some [{ kind := .fetch, addr := 0x8000, cc := 0 }, { kind := .read, addr := 0x9000, cc := 4 }] := by
  decide +kernel
theorem test_effect_not_allowed :
    isRefused .effectNotAllowed (step { start id [0xD3, 0xFE] with
      chain := [{ handlers := { output := some (.script [{ effects := [.setRegs [.a 1]] }]) } }] }) = true := by
  decide +kernel

/-! ## Ports and mapping (S1, S4, S5) -/

theorem test_in_merge :
    (let s := start id [0xDB, 0x10]
    after { s with chain := s.chain ++
      [{ handlers := { input := some (.script [{ v := some 0x00, drv := 0x1F }]) } },
       { inMask := 0x00E0, handlers := { input := some (.script [{ v := some 0x00, drv := 0x20 }]) } }] }
      (fun t => (t.regs.a, t.regs.wz, t.regs.r, t.cc))) = some (0xC0, 0x0011, 0x01, 11) := by decide +kernel

/-- A device that maps page 3 to block `b` at every OUT to port xxFE. -/
def mapper (b : Nat) : Link where
  outMask := 0x00FF
  outBits := 0x00FE
  handlers := { output := some (.script [{ effects := [.map 7
    { start := 0xC000, len := 0x4000, read := { block := b, base := 0 }, write := { block := b, base := 0 } }] }]) }

theorem test_attach_order :
    (let s := start id [0xD3, 0xFE]
    after { s with
      mem := s.mem ++ [{ id := 2, len := 16384, data := [(0, 0xAA)] }, { id := 3, len := 16384, data := [(0, 0xBB)] }]
      chain := s.chain ++ [mapper 2, mapper 3] } (·.byteAt 0xC000)) = some 0xBB := by decide +kernel
theorem test_misaligned_map :
    isRefused .misalignedMap (perform (hostOp (.map { defaultMap with start := 0x8001, len := 0x4000 })) State.reset) = true := by
  decide +kernel
theorem test_bad_unmap : isRefused .badUnmap (perform (hostOp (.unmap 5)) State.reset) = true := by decide +kernel

/-! ## Paging protocol (2.14): steps 1, 2, 5 and 7 -/

/-- A device whose overlay is its own ROM over page 0. -/
def pager (b : Nat) : Link where
  handlers := {
    overlay := .fixed [
      { start := 0, len := 0x4000, read := { block := b, base := 0 }, write := { block := sinkId, base := 0 } }] }

/-- The chain of section 2.14 once L1 and L2 have asked for paging. -/
def paged : State :=
  { State.reset with
    mem := State.reset.mem ++ [{ id := 3, len := 16384, data := [(0, 0x11)] }, { id := 4, len := 16384, data := [(0, 0x12)] }]
    chain := State.reset.chain ++ [pager 3, pager 4] }

/-- `want`, `hidden` and what page 0 reads after an action. -/
def pagingAfter (m : M Unit) (s : State) : Option (List Bool × List Bool × Byte) :=
  match m s with
  | .ok _ t => some (t.chain.map (·.want), t.chain.map (·.hidden), t.byteAt 0x0000)
  | .error _ _ => none

theorem test_paging_one :
    pagingAfter (startWanting 1) paged = some ([true, true, false], [true, false, false], 0x11) := by decide +kernel
theorem test_paging_two :
    pagingAfter (do startWanting 1; startWanting 2) paged = some ([true, true, true], [true, true, false], 0x12) := by
  decide +kernel
theorem test_paging_released :
    pagingAfter (do startWanting 1; startWanting 2; stopWanting 2) paged =
      some ([true, true, false], [true, false, false], 0x11) := by decide +kernel
theorem test_paging_controller : isRefused .badPaging (perform (stopWanting 0) paged) = true := by decide +kernel

/-! ## Scheduler (S3, 2.15) -/

theorem test_flyback :
    after { scheduled 70000 69888 2147483647 70000 with ic := 18 }
        (fun t => (t.cc, t.target, t.ic, t.cpf, t.frameCount)) = some (112, 112, 0, 69888, 1) := by decide +kernel
theorem test_bad_geometry : isRefused .badFrameGeometry (step (scheduled 70000 0 2147483647 70000)) = true := by
  decide +kernel
theorem test_stop_recording_idle : isRefused .badReplayTransition (perform (hostOp .stopRecording) State.reset) = true := by
  decide +kernel

/-! ## Reset and storage (2.16) -/

theorem test_reset :
    (match perform (hostOp .reset) { start (fun g => { g with
        pc := 0x1234, im := .im2, iff1 := true, iff2 := true, i := 0x3F, r := 0x55, a := 0x77, sp := 0x8000 }) [] with
        cc := 500 } with
      | .next t => (t.regs.pc, t.regs.im, t.regs.iff1 || t.regs.iff2, t.regs.i ||| t.regs.r, t.regs.a, t.cc)
      | _ => (0, .im2, true, 0, 0, 0)) = (0x0000, .im0, false, 0x00, 0x77, 500) := by decide +kernel
theorem test_no_baseline :
    isRefused .noBaseline (perform (hostOp (.powerOn { defaultPowerOn with links := [{}] } 0)) State.reset) = true := by
  decide +kernel
theorem test_free_while_mapped : isRefused .freeWhileMapped (perform (hostOp (.freeBlock 1)) State.reset) = true := by
  decide +kernel
theorem test_bad_pattern :
    isRefused .badPattern (perform (hostOp (.attach 1
      { inMask := 0x00FF, inBits := 0x0100, handlers := { input := some (.script []) } })) State.reset) = true := by
  decide +kernel
theorem test_bad_position : isRefused .badPosition (perform (hostOp (.attach 0 {})) State.reset) = true := by decide +kernel

/-! ## Rules 10 R60 and R80, 92 D60, 70 R772 -/

/-- A device replaces the only mapping of every page: the new mapping is installed before the old one goes (D60). -/
theorem test_map_replaces_only_mapping :
    (match applyEffect 0 false (.map 0 defaultMap) State.reset with
      | .ok _ t => (t.pages.map (·.map (·.handle)), t.chain.map (·.maps))
      | .error _ _ => ([], [])) = ([[1], [1], [1], [1]], [[(0, 1)]]) := by decide +kernel
theorem test_power_on_with_breakpoint :
    isRefused .badConfig (perform (hostOp (.powerOn { defaultPowerOn with
      blocks := [{ defaultRam with flags := [(0, { breakExec := true })] }] } 0)) State.reset) = true := by decide +kernel
theorem test_power_on_with_late_audio_boundary :
    isRefused .badConfig (perform (hostOp (.powerOn { defaultPowerOn with
      cfg := { defaultCfg with audioNext := [{ start := 0, stop := 2, val := 1 }] } } 0)) State.reset) = true := by
  decide +kernel
theorem test_load_without_head_want :
    State.reset.loadOk { State.reset.save with
      links := State.reset.save.links.map fun l => { l with want := false } } = false := by decide +kernel
theorem test_debugger_reads_flags :
    (match perform (hostOp (.debugRead (.cell 1 5)))
        { State.reset with mem := State.reset.mem.setFlags { block := 1, base := 5 } { breakRead := true } } with
      | .next t => decide (t.results = [.read (.cell 0x00 { breakRead := true })])
      | _ => false) = true := by decide +kernel

end Sys2Proof.Tests
end

section
/-! PROOFS of the family 00_scope.md. The frame and audio boundaries of the scheduler where the lifecycle handlers have no
effects beyond the device's own state. -/

namespace Sys2Proof.Machine

/-- The link a lifecycle callback without effects leaves: the device's new state, and nothing else changed. -/
def Link.calledBack (pick : Handlers → Handler) (call : Nat → HandlerCall) (l : Link) : Link :=
  { l with dev := ((pick l.handlers).call (call l.dev)).dev }

/-- A lifecycle callback (50_bus.md rule R630) whose answers have no effects changes each link by itself. -/
theorem run_lifecycle {s : State} {pick : Handlers → Handler} {call : Nat → HandlerCall}
    (h : ∀ l ∈ s.chain, ((pick l.handlers).call (call l.dev)).effects = []) :
    lifecycle pick call s = .ok () { s with chain := s.chain.map (Link.calledBack pick call) } := by
  unfold lifecycle
  refine run_foldChain (acc := fun _ _ => ()) (fun _ l ch i hl hi => ?_) ()
  rw [run_bind_ok (run_runHandler (h l hl)), run_pure,
    modify_dev hi fun k => ((pick k.handlers).call (call k.dev)).dev]
  rfl

/-- The flyback asks for the next frame's length first, and refuses a bad geometry there (rule R653). -/
theorem run_flyback_bad {s : State} (h : s.cfg.geometryOk (s.cfg.frameFlyback s.cc) = false) :
    flyback s = .error (.refused .badFrameGeometry)
      { s with callouts := s.callouts ++ [.frameFlyback s.cc (s.cfg.frameFlyback s.cc)] } := by
  unfold flyback
  rw [run_bind_ok (run_get s), run_bind_ok (run_callOut _ s), h]
  rfl

/-- The counters after a flyback to a frame of `r` cycles (rule R650). -/
def State.rebased (s : State) (r : Int) : State :=
  { s with
    frameCount := s.frameCount + 1
    cc := s.cc - r
    target := s.target - r
    audioCc := s.audioCc - r
    ic := 0
    cpf := r }

/-- With a good geometry and calm frame-end handlers, the flyback rebases the counters and hands the closed frame's
instruction count to the replay (rule R650). -/
theorem run_flyback_calm {s : State} (hg : s.cfg.geometryOk (s.cfg.frameFlyback s.cc) = true)
    (h : ∀ l ∈ s.chain, (l.handlers.frameEnd.call (.frameEnd l.dev s.cc)).effects = []) :
    flyback s = replayFlyback s.ic (State.rebased { s with
      callouts := s.callouts ++ [.frameFlyback s.cc (s.cfg.frameFlyback s.cc)]
      chain := s.chain.map (Link.calledBack (·.frameEnd) (.frameEnd · s.cc)) } (s.cfg.frameFlyback s.cc)) := by
  unfold flyback
  rw [run_bind_ok (run_get s), run_bind_ok (run_callOut _ s), hg]
  exact run_bind_ok (run_lifecycle h)

/-- An audio block with calm handlers moves the boundary on and changes only the devices (rule R651). -/
theorem run_audioBlock_calm {s : State}
    (h : ∀ l ∈ s.chain,
      (l.handlers.audioBlockEnd.call (.audioBlockEnd l.dev (s.cfg.audioTimeAt s.audioCc))).effects = []) :
    audioBlock s = .ok () { s with
      callouts := s.callouts ++ [.audioBlockEnd (s.cfg.audioTimeAt s.audioCc)]
      chain := s.chain.map (Link.calledBack (·.audioBlockEnd) (.audioBlockEnd · (s.cfg.audioTimeAt s.audioCc)))
      audioCc := s.cfg.nextAudioCc s.audioCc } := by
  unfold audioBlock
  rw [run_bind_ok (run_get s), run_bind_ok (run_callOut _ s)]
  exact run_bind_ok (run_lifecycle h)

/-- Settles O52: the flyback's two outcomes, the audio block, and the boundary that only goes up. -/
theorem frameAndAudioBoundaries : Obligations.FrameAndAudioBoundaries := fun s =>
  ⟨fun hbad => ⟨_, run_flyback_bad hbad⟩, run_flyback_calm, run_audioBlock_calm, s.cfg.nextAudioCc_gt s.audioCc⟩

end Sys2Proof.Machine
end

section
/-! PROOFS of the family 10_state.md. The reset state, what an instruction leaves alone, when storage may be freed or resized,
and the soundness of storage and paging across every step of the agent. -/

namespace Sys2Proof.Machine

/-! ## The reset state -/

/-- Settles O4: every value of rule R80 is the one the reset state is written with. -/
theorem resetRegisters : Obligations.ResetRegisters := by
  unfold Obligations.ResetRegisters
  decide

/-- Settles O5: each condition is checked on the reset state's one RAM block, its four pages and its one link. -/
theorem resetSound : Obligations.ResetSound := by
  have hmem : State.reset.mem.wf = true := by decide
  have hsink : State.reset.mem.sinkOk State.reset.cfg = true := by decide
  have hpages : State.reset.pages.ok State.reset.cfg State.reset.mem = true := by decide
  exact ⟨⟨hmem, hsink, hpages, rfl⟩, rfl⟩

/-! ## What an instruction leaves alone -/

/-- The fields no instruction changes (10_state.md rules R44, R51, R65, R67 and R69, and the model's own). -/
def State.held (s : State) :=
  (s.ic, s.targetCc, s.targetIc, s.mode, s.stackBreak, s.execBpSkip, s.cpf, s.frameCount, s.audioCc, s.target, s.stream,
    s.frameIx, s.recSnap, s.refused, s.faulted, s.cfg, s.phase, s.hostOps, s.results)

/-- Those fields are as before, and `cc` has not gone down (rule R50). -/
def KeepsFrame (s t : State) : Prop := t.held = s.held ∧ s.cc ≤ t.cc

/-- Every small change keeps the frame, and only time moves `cc`. -/
theorem frame_atoms : Atoms KeepsFrame where
  refl s := ⟨rfl, Int.le_refl s.cc⟩
  trans _ _ _ h1 h2 := ⟨h2.1.trans h1.1, Int.le_trans h1.2 h2.2⟩
  regs s _ := ⟨rfl, Int.le_refl s.cc⟩
  time _ _ hk := ⟨rfl, Int.le_add_of_nonneg_right hk⟩
  exits s _ := ⟨rfl, Int.le_refl s.cc⟩
  log s _ := ⟨rfl, Int.le_refl s.cc⟩
  call s _ := ⟨rfl, Int.le_refl s.cc⟩
  data s _ _ _ _ := ⟨rfl, Int.le_refl s.cc⟩
  flags s _ _ _ _ _ := ⟨rfl, Int.le_refl s.cc⟩
  links s _ _ := ⟨rfl, Int.le_refl s.cc⟩
  map s _ _ _ := ⟨rfl, Int.le_refl s.cc⟩
  unmap s _ _ := ⟨rfl, Int.le_refl s.cc⟩
  replay s _ _ _ := ⟨rfl, Int.le_refl s.cc⟩
  latch s _ := ⟨rfl, Int.le_refl s.cc⟩

/-- What every small change respects, an instruction's meaning respects. -/
theorem related_of_exec {R : State → State → Prop} (h : Atoms R) {i : Instr} {s t : State} (he : exec i s = .next t) :
    R s t := by
  rw [exec_eq_runForm, perform_next_iff] at he
  exact moves_runForm h i.form s () t he

/-- Settles O8: the frame is kept by every small change an instruction is made of. -/
theorem engineFrame : Obligations.EngineFrame := fun _ _ _ he => by
  obtain ⟨hheld, hcc⟩ := related_of_exec frame_atoms he
  simp only [State.held, Prod.mk.injEq] at hheld
  simp only [hheld, hcc, and_self]

/-! ## Freeing and resizing storage (70_reset_and_hazards.md rule R770) -/

theorem run_freeBlock {s : State} {id : Nat} {b : Block} (hb : s.mem.block? id = some b) :
    freeBlock id s = if s.mayChange id then
        .ok () { s with mem := s.mem.filter (·.id != id), results := s.results ++ [.done], phase := .suspended }
      else .error (.refused .freeWhileMapped) s := by
  unfold freeBlock
  rw [run_bind_ok (run_get s), hb]
  cases s.mayChange id <;> rfl

theorem run_resizeBlock {s : State} {id n : Nat} {b : Block} (hb : s.mem.block? id = some b) (hn : 0 < n) :
    resizeBlock id n s = if s.mayChange id then
        .ok () { s with mem := s.mem.update id (·.resize n), results := s.results ++ [.done], phase := .suspended }
      else .error (.refused .freeWhileMapped) s := by
  unfold resizeBlock
  rw [run_bind_ok (run_get s), hb, decide_eq_false (Nat.ne_of_gt hn)]
  cases s.mayChange id <;> rfl

theorem refersTo_iff {p : PageTable} {id : Nat} :
    p.refersTo id = true ↔ ∃ stack ∈ p, ∃ x ∈ stack, x.refersTo id = true := by
  simp only [PageTable.refersTo, List.any_eq_true]

theorem mayChange_sink (s : State) : s.mayChange sinkId = false := rfl

theorem mayChange_of_refersTo {s : State} {id : Nat} (h : s.pages.refersTo id = true) : s.mayChange id = false := by
  simp [State.mayChange, h]

theorem mayChange_of_unreferred {s : State} {id : Nat} (hid : id ≠ sinkId)
    (h : ∀ stack ∈ s.pages, ∀ x ∈ stack, x.refersTo id = false) : s.mayChange id = true := by
  have hr : s.pages.refersTo id = false := by
    rw [Bool.eq_false_iff, Ne, refersTo_iff]
    rintro ⟨stack, hst, x, hx, href⟩
    exact absurd href (by simp [h stack hst x hx])
  simp [State.mayChange, hid, hr]

/-- Settles O59: both operations ask only whether the block may change. -/
theorem storageLifetime : Obligations.StorageLifetime := fun s id n b hb => by
  refine ⟨?sink, ?mapped, ?free⟩
  case sink =>
    rintro rfl
    rw [run_freeBlock hb, mayChange_sink]
    rfl
  case mapped =>
    intro href
    have hmay := mayChange_of_refersTo (refersTo_iff.mpr href)
    refine ⟨?_, fun hn => ?_⟩
    · rw [run_freeBlock hb, hmay]; rfl
    · rw [run_resizeBlock hb hn, hmay]; rfl
  case free =>
    intro hid hnone
    have hmay := mayChange_of_unreferred hid hnone
    refine ⟨?_, fun hn => ?_⟩
    · rw [run_freeBlock hb, if_pos hmay]
    · rw [run_resizeBlock hb hn, if_pos hmay]

/-! ## Actions from one state

Every step keeps storage and paging sound: the instruction, the boundary step, the scheduler and each host operation move
between states related by `KeepsInv`. Power-on alone goes through states where a page may still have no mapping. -/

section Actions
variable {α β : Type} {R : State → State → Prop}

/-- Where the action begun in `s` ends normally, the state it leaves is related to `s`. -/
def MovesFrom (R : State → State → Prop) (s : State) (m : M α) : Prop := ∀ a t, m s = .ok a t → R s t

theorem Moves.movesFrom {m : M α} (h : Moves R m) (s : State) : MovesFrom R s m := h s

/-- An action that looks at the state moves where it moves from each state, knowing it. -/
theorem moves_of_get {f : State → M β} (hf : ∀ s, MovesFrom R s (f s)) : Moves R ((get : M State) >>= f) :=
  moves_get_bind hf

theorem movesFrom_refuse (r : Refusal) (s : State) : MovesFrom R s (M.refuse r : M α) := moves_refuse r s

theorem movesFrom_ite {c : Prop} [Decidable c] {s : State} {m n : M α} (hm : c → MovesFrom R s m)
    (hn : ¬c → MovesFrom R s n) : MovesFrom R s (if c then m else n) := by
  split
  · next hc => exact hm hc
  · next hc => exact hn hc

theorem movesFrom_set {s u : State} (h : R s u) : MovesFrom R s (set u : M PUnit) := by
  intro a t he
  cases he
  exact h

theorem movesFrom_bind_of {s : State} {m : M α} {f : α → M β}
    (hf : ∀ a u, m s = .ok a u → ∀ b t, f a u = .ok b t → R s t) : MovesFrom R s (m >>= f) := by
  intro b t he
  rw [run_bind] at he
  cases hs : m s with
  | error e u => rw [hs] at he; cases he
  | ok a u => rw [hs] at he; exact hf a u hs b t he

theorem movesFrom_bind (h : Atoms R) {s : State} {m : M α} {f : α → M β} (hm : MovesFrom R s m)
    (hf : ∀ a, Moves R (f a)) : MovesFrom R s (m >>= f) :=
  movesFrom_bind_of fun a u hs b t he => h.trans _ _ _ (hm a u hs) (hf a u b t he)

/-- A refusal guards what follows it: where the whole ends normally, the condition was false. -/
theorem ok_of_guard {c : Bool} {r : Refusal} {m : M β} {s t : State} {b : β}
    (he : (if c then M.refuse r >>= fun (_ : PUnit) => m else m) s = .ok b t) : c = false ∧ m s = .ok b t := by
  cases c with
  | false => exact ⟨rfl, he⟩
  | true => cases he

/-! ## Fetching -/

theorem moves_fetchRow (h : Atoms R) (r : Row α) : Moves R (fetchRow r) := by
  cases r with
  | plain i => exact moves_pure h i
  | dropped i => exact moves_pure h i
  | page p => exact moves_fault _
  | imm8 f => exact moves_bind h (moves_imm8 h) fun n => moves_pure h (f n)
  | late8 f =>
    exact moves_bind h (moves_theRegs h) fun g => moves_bind h (moves_internal h g.ir 1) fun _ =>
      moves_bind h (moves_imm8 h) fun n => moves_pure h (f n)
  | imm16 f => exact moves_bind h (moves_imm16 h) fun nn => moves_pure h (f nn)
  | imm8x2 f =>
    exact moves_bind h (moves_imm8 h) fun d => moves_bind h (moves_imm8 h) fun n => moves_pure h (f d n)

theorem moves_fetchXcb (h : Atoms R) (tb : Tables α) (i : XY) : Moves R (fetchXcb tb i) := by
  refine moves_bind h (moves_imm8 h) fun d => moves_bind h (moves_imm8 h) fun op => ?_
  split
  · exact moves_pure h _
  · exact moves_fault _

theorem moves_fetchPage (h : Atoms R) (tb : Tables α) (p : Page) : Moves R (fetchPage tb p) := by
  refine moves_bind h (moves_fetchOp h) fun op => ?_
  split
  · exact moves_fault _
  · exact moves_fetchXcb h tb _
  · exact moves_fetchRow h _

theorem moves_fetchFrom (h : Atoms R) (tb : Tables α) (b : Byte) : Moves R (fetchFrom tb b) := by
  unfold fetchFrom
  split
  · exact moves_fault _
  · exact moves_fetchPage h tb _
  · exact moves_fetchRow h _

/-- An instruction's meaning, as an action, moves as its form does. -/
theorem moves_exec (h : Atoms R) (i : Instr) : Moves R (ofOutcome (exec i)) := by
  intro s a t he
  unfold ofOutcome at he
  split at he
  · next hx => cases he; exact related_of_exec h hx
  · cases he
  · cases he

theorem moves_execBreakHit (h : Atoms R) : Moves R execBreakHit := by
  refine moves_bind h (moves_get h) fun s => moves_ite ?_ (moves_pure h false)
  exact moves_bind h (moves_active h _) fun m => moves_bind h (moves_cellAt h _) fun c => moves_pure h _

end Actions

/-! ## The boundary step -/

/-- A stack check writes `stack_break` and may latch an exit. -/
theorem keeps_stackCheck : Moves KeepsInv stackCheck := by
  refine moves_of_get fun s => ?_
  cases s.stackBreak with
  | none => exact (moves_pure inv_atoms ()).movesFrom s
  | some v =>
    refine movesFrom_ite (fun _ => ?_) fun _ => (moves_pure inv_atoms ()).movesFrom s
    exact movesFrom_bind inv_atoms (movesFrom_set id) fun _ => moves_latchExit inv_atoms _

theorem keeps_completeInstr (wasEi : Bool) : Moves KeepsInv (completeInstr wasEi) :=
  moves_of_get fun s => movesFrom_ite (fun _ => (moves_fault _).movesFrom s) fun _ =>
    movesFrom_bind inv_atoms (movesFrom_set id) fun _ => keeps_stackCheck

theorem keeps_execute (b : Byte) : Moves KeepsInv (execute b) :=
  moves_bind inv_atoms (moves_fetchFrom inv_atoms instrTables b) fun i => moves_bind inv_atoms (moves_exec inv_atoms i)
    fun _ => moves_bind inv_atoms (moves_get inv_atoms) fun _ =>
      moves_ite (keeps_completeInstr _) (moves_pure inv_atoms ())

theorem keeps_haltedStep : Moves KeepsInv haltedStep :=
  moves_bind inv_atoms (moves_theRegs inv_atoms) fun g => moves_bind inv_atoms (moves_m1 inv_atoms g.pc) fun _ =>
    keeps_completeInstr false

theorem keeps_completeEntry : Moves KeepsInv completeEntry :=
  moves_bind inv_atoms keeps_stackCheck fun _ => moves_modify fun _ => id

section Boundary
variable {ex : Byte → M Unit} (hex : ∀ b, Moves KeepsInv (ex b))
include hex

theorem keeps_boundaryAct : Moves KeepsInv (boundaryAct ex) := by
  refine moves_of_get fun s => ?_
  have entry {m : M Unit} (hm : Moves KeepsInv m) :
      MovesFrom KeepsInv s (do m; completeEntry; return none : M (Option ExitReason)) :=
    (moves_bind inv_atoms hm fun _ => moves_bind inv_atoms keeps_completeEntry fun _ => moves_pure inv_atoms _).movesFrom s
  refine movesFrom_ite (fun _ => entry (moves_acceptNmi inv_atoms)) fun _ =>
    movesFrom_ite (fun _ => entry (moves_acceptInt inv_atoms)) fun _ => ?_
  refine movesFrom_bind_of fun hit u hs => ?_
  cases hit with
  | true => exact movesFrom_bind inv_atoms (movesFrom_set id) fun _ => moves_pure inv_atoms _
  | false =>
    have hrest : Moves KeepsInv (if s.regs.halted then haltedStep >>= fun _ => pure none
        else fetchOp >>= fun op => ex op >>= fun _ => pure none : M (Option ExitReason)) :=
      moves_ite (moves_bind inv_atoms keeps_haltedStep fun _ => moves_pure inv_atoms none)
        (moves_bind inv_atoms (moves_fetchOp inv_atoms) fun op => moves_bind inv_atoms (hex op) fun _ =>
          moves_pure inv_atoms none)
    exact fun b t he => inv_atoms.trans _ _ _ (moves_execBreakHit inv_atoms s false u hs) (hrest u b t he)

theorem keeps_boundaryStep : Moves KeepsInv (boundaryStep ex) := by
  refine moves_of_get fun s => ?_
  cases s.pendingExit with
  | some e => exact movesFrom_bind inv_atoms (movesFrom_set id) fun _ => moves_pure inv_atoms _
  | none =>
    refine movesFrom_ite (fun _ => (moves_pure inv_atoms _).movesFrom s) fun _ =>
      movesFrom_ite (fun _ => (moves_pure inv_atoms _).movesFrom s) fun _ =>
      movesFrom_ite (fun _ => (moves_pure inv_atoms _).movesFrom s) fun _ => (keeps_boundaryAct hex).movesFrom s

theorem keeps_runStep : Moves KeepsInv (runStep ex) := by
  refine moves_of_get fun s => ?_
  cases s.latch with
  | some op =>
    exact movesFrom_bind inv_atoms (movesFrom_set id) fun _ => moves_bind inv_atoms (hex op) fun _ =>
      moves_pure inv_atoms none
  | none => exact (keeps_boundaryStep hex).movesFrom s

end Boundary

/-! ## The scheduler -/

theorem keeps_answer (r : HostResult) : Moves KeepsInv (answer r) := moves_modify fun _ => id

theorem keeps_runReturned (byScheduler : Bool) (e : ExitReason) : Moves KeepsInv (runReturned byScheduler e) := by
  have hphase : Moves KeepsInv (modify fun s => { s with phase := .scheduling }) := moves_modify fun _ => id
  refine moves_ite ?_ (keeps_answer _)
  cases e with
  | cycleLimitReached => exact hphase
  | instructionLimitReached => exact hphase
  | outOfSync => exact hphase
  | readBreakpoint a => exact keeps_answer _
  | writeBreakpoint a => exact keeps_answer _
  | execBreakpoint a => exact keeps_answer _
  | stackBreakpoint sp => exact keeps_answer _

theorem keeps_startRun (byScheduler : Bool) (cc : Int) (ic : Nat) (mode : ModeFlags) :
    Moves KeepsInv (startRun byScheduler cc ic mode) :=
  moves_bind inv_atoms (moves_modify fun _ => id) fun _ => moves_of_get fun s =>
    movesFrom_ite (fun _ => (keeps_runReturned _ _).movesFrom s) fun _ => movesFrom_set id

theorem inv_nextFrame (s : State) : KeepsInv s s.nextFrame := by
  intro h
  unfold State.nextFrame
  dsimp only
  split
  · exact h
  · split
    · split <;> exact h
    · exact h

theorem keeps_replayFlyback (closeIc : Nat) : Moves KeepsInv (replayFlyback closeIc) := by
  refine moves_modify fun s => ?_
  cases s.replayMode with
  | recording => exact id
  | playing => exact inv_nextFrame s
  | idle => exact id
  | endOfFile => exact id
  | outOfSync => exact id

theorem keeps_flyback : Moves KeepsInv flyback := by
  refine moves_bind inv_atoms (moves_get inv_atoms) fun s => moves_bind inv_atoms (moves_callOut inv_atoms _) fun _ => ?_
  refine moves_ite (moves_bind inv_atoms (moves_refuse _) fun _ => ?rest) ?rest
  exact moves_bind inv_atoms (moves_lifecycle inv_atoms _ _) fun _ => moves_bind inv_atoms (moves_get inv_atoms) fun u =>
    moves_bind inv_atoms (moves_modify fun _ => id) fun _ => keeps_replayFlyback u.ic

theorem keeps_audioBlock : Moves KeepsInv audioBlock :=
  moves_bind inv_atoms (moves_get inv_atoms) fun _ => moves_bind inv_atoms (moves_callOut inv_atoms _) fun _ =>
    moves_bind inv_atoms (moves_lifecycle inv_atoms _ _) fun _ => moves_modify fun _ => id

theorem keeps_audioOrRun : Moves KeepsInv audioOrRun :=
  moves_bind inv_atoms (moves_get inv_atoms) fun _ => moves_ite keeps_audioBlock <| moves_ite (keeps_answer _) <|
    moves_bind inv_atoms (moves_get inv_atoms) fun _ => keeps_startRun true _ _ _

theorem keeps_loseSync : Moves KeepsInv loseSync := moves_modify fun _ => id

theorem keeps_schedulerStep : Moves KeepsInv schedulerStep := by
  refine moves_bind inv_atoms (moves_get inv_atoms) fun s => ?_
  cases s.replayMode with
  | outOfSync => exact keeps_answer _
  | endOfFile => exact keeps_answer _
  | idle => exact moves_ite keeps_flyback keeps_audioOrRun
  | recording => exact moves_ite keeps_flyback keeps_audioOrRun
  | playing =>
    cases s.stream[s.frameIx]? with
    | none => exact keeps_loseSync
    | some fr =>
      exact moves_ite (moves_ite keeps_flyback keeps_loseSync) (moves_ite keeps_loseSync keeps_audioOrRun)

/-! ## Power-on and reset -/

theorem Cfg.pageSize_pos (c : Cfg) : 0 < c.pageSize := Nat.two_pow_pos _

theorem Cfg.sink_wf (c : Cfg) : c.sink.wf = true := by
  have hlen : 1 ≤ c.sink.len := c.pageSize_pos
  rw [Block.wf, decide_eq_true hlen]
  rfl

/-- Before the power-on handlers run, only the pages are missing. -/
theorem powerOnState_butEmpty {c : PowerOnConfig} {cc0 : Int} (hc : c.ok cc0 = true) (s : State) :
    (powerOnState c cc0 s).InvButEmpty := by
  simp only [PowerOnConfig.ok, Bool.and_eq_true, Bool.not_eq_true', List.isEmpty_eq_false_iff] at hc
  obtain ⟨⟨⟨⟨-, hblocks⟩, -⟩, hlinks⟩, -⟩ := hc
  refine ⟨?mem, ?sink, ?len, ?maps, headWants_powerOnState hlinks cc0 s⟩
  case mem =>
    simp only [powerOnState, Memory.wf, Memory.wfFrom, c.cfg.sink_wf, Bool.and_eq_true]
    exact ⟨⟨rfl, trivial⟩, hblocks⟩
  case sink => simp [powerOnState, Memory.sinkOk, Memory.block?, Cfg.sink]
  case len => exact List.length_replicate
  case maps =>
    intro st hst x hx
    rw [List.eq_of_mem_replicate hst] at hx
    cases hx

/-- The power-on handlers, and the overlay of `L[0]`, keep what holds before them (rule R750). -/
theorem powerOn_links_butEmpty (cc0 : Int) :
    Moves (fun s t => s.InvButEmpty → t.InvButEmpty) (foldChain (x := ()) fun _ i l => do
      let _ ← runHandler i false l.handlers.powerOn (.powerOn l.dev cc0)
      if i = 0 then mapOwn 0) :=
  moves_foldChain butEmpty_atoms (fun _ _ _ => moves_bind butEmpty_atoms (moves_runHandler butEmpty_atoms _ _ _ _) fun _ =>
    moves_ite (moves_mapOwn butEmpty_atoms 0) (moves_pure butEmpty_atoms ())) ()

/-- Power-on leaves a sound machine, whatever it began with. -/
theorem powerOn_inv {c : PowerOnConfig} {cc0 : Int} {s t : State} {a : Unit} (he : powerOn c cc0 s = .ok a t) : t.Inv := by
  obtain ⟨hok, he⟩ := ok_of_guard he
  obtain ⟨-, he⟩ := ok_of_guard he
  obtain ⟨-, he⟩ := ok_of_guard he
  rw [run_bind_ok (run_modify _ s), run_bind] at he
  split at he
  · next u hu =>
    obtain ⟨hne, he⟩ := ok_of_guard he
    cases he
    exact (powerOn_links_butEmpty cc0 _ _ _ hu (powerOnState_butEmpty (by simpa using hok) s)).inv hne
  · cases he

theorem keeps_resetCpu : Moves KeepsInv resetCpu :=
  moves_bind inv_atoms (moves_modify fun _ => id) fun _ => moves_bind inv_atoms (moves_get inv_atoms) fun _ =>
    moves_bind inv_atoms (moves_lifecycle inv_atoms _ _) fun _ => keeps_answer _

/-! ## Snapshots and replay control -/

/-- The blocks after a load that has every block of the machine: the same, but for their data. -/
theorem block?_load {m : Memory} {ds : List BlockSnap} (hds : ds.map (fun d => (d.id, d.len)) = m.map fun b => (b.id, b.len))
    (q : Nat) : (m.block? q = none ∧ Memory.block? (List.zipWith Block.load m ds) q = none) ∨
      ∃ b d, m.block? q = some b ∧ Memory.block? (List.zipWith Block.load m ds) q = some (b.load d) := by
  induction m generalizing ds with
  | nil => exact .inl ⟨rfl, rfl⟩
  | cons b m ih =>
    cases ds with
    | nil => cases hds
    | cons d ds =>
      by_cases hb : b.id = q
      · exact .inr ⟨b, d, if_pos hb, if_pos hb⟩
      · have hold : Memory.block? (b :: m) q = Memory.block? m q := if_neg hb
        have hnew : Memory.block? (List.zipWith Block.load (b :: m) (d :: ds)) q =
            Memory.block? (List.zipWith Block.load m ds) q := if_neg hb
        rw [hold, hnew]
        exact ih (List.cons.inj hds).2

theorem wfFrom_load {m : Memory} {ds : List BlockSnap} {lo : Nat}
    (hds : ds.map (fun d => (d.id, d.len)) = m.map fun b => (b.id, b.len))
    (hdata : ∀ d ∈ ds, sparseWf unlistedByte d.len 0 d.data = true) (h : Memory.wfFrom lo m = true) :
    Memory.wfFrom lo (List.zipWith Block.load m ds) = true := by
  induction m generalizing ds lo with
  | nil => rfl
  | cons b m ih =>
    cases ds with
    | nil => cases hds
    | cons d ds =>
      simp only [List.map_cons, List.cons.injEq, Prod.mk.injEq] at hds
      obtain ⟨⟨-, hlen⟩, hds⟩ := hds
      have hd := hdata d List.mem_cons_self
      rw [hlen] at hd
      simp only [Memory.wfFrom, Bool.and_eq_true] at h
      obtain ⟨⟨hlo, hb⟩, hm⟩ := h
      simp only [List.zipWith_cons_cons, Memory.wfFrom, Bool.and_eq_true, Block.load_id]
      exact ⟨⟨hlo, Block.load_wf hb hd⟩, ih hds (fun e he => hdata e (List.mem_cons_of_mem _ he)) hm⟩

/-- A load that passes its checks keeps storage and paging sound. -/
theorem inv_load {s : State} {d : Snapshot} (hok : s.loadOk d = true) : KeepsInv s (s.load d) := by
  rintro ⟨hwf, hsink, -, -⟩
  have hhead := (State.load_signals hok).1
  simp only [State.loadOk, Bool.and_eq_true, decide_eq_true_eq, List.all_eq_true] at hok
  obtain ⟨⟨⟨⟨⟨⟨⟨⟨⟨hds, hdata⟩, -⟩, -⟩, -⟩, -⟩, hpages⟩, -⟩, -⟩, -⟩ := hok
  have hfits (r : Ref) (n : Nat) : r.fits (List.zipWith Block.load s.mem d.blocks) n = r.fits s.mem n := by
    unfold Ref.fits
    rcases block?_load hds r.block with ⟨h0, h1⟩ | ⟨b, e, h0, h1⟩ <;> rw [h0, h1]
    rfl
  have hsinkOk : Memory.sinkOk (List.zipWith Block.load s.mem d.blocks) s.cfg = s.mem.sinkOk s.cfg := by
    unfold Memory.sinkOk
    rcases block?_load hds sinkId with ⟨h0, h1⟩ | ⟨b, e, h0, h1⟩ <;> rw [h0, h1]
    rfl
  exact ⟨wfFrom_load hds hdata hwf, hsinkOk.trans hsink, (pagesOk_congr hfits d.pages s.cfg).trans hpages, hhead⟩

theorem keeps_loadSnapshot (snap : Option Snapshot) : Moves KeepsInv (loadSnapshot snap) := by
  refine moves_of_get fun s => ?_
  cases snap with
  | none => exact (keeps_answer _).movesFrom s
  | some d =>
    exact movesFrom_ite (fun hok => movesFrom_bind inv_atoms (movesFrom_set (inv_load hok)) fun _ => keeps_answer _)
      fun _ => (keeps_answer _).movesFrom s

theorem keeps_startPlaying (stream : List ReplayFrame) (k : Nat) : Moves KeepsInv (startPlaying stream k) := by
  refine moves_of_get fun s => movesFrom_ite (fun _ => ?_) fun _ => movesFrom_refuse _ s
  cases stream[k]?.bind (·.snapshot) with
  | none => exact movesFrom_refuse _ s
  | some d =>
    refine movesFrom_ite (fun hok => ?_) fun _ => (keeps_answer _).movesFrom s
    exact movesFrom_bind inv_atoms (movesFrom_set fun h => inv_load hok h) fun _ => keeps_answer _

theorem keeps_startRecording : Moves KeepsInv startRecording :=
  moves_of_get fun s => movesFrom_ite
    (fun _ => movesFrom_bind inv_atoms (movesFrom_set id) fun _ => keeps_answer _) fun _ => movesFrom_refuse _ s

theorem keeps_moveReplay (src dst : ReplayMode) : Moves KeepsInv (moveReplay src dst) :=
  moves_of_get fun s => movesFrom_ite
    (fun _ => movesFrom_bind inv_atoms (movesFrom_set id) fun _ => keeps_answer _) fun _ => movesFrom_refuse _ s

theorem keeps_stopRecording : Moves KeepsInv stopRecording :=
  moves_bind inv_atoms (keeps_moveReplay .recording .idle) fun _ => moves_modify fun _ => id

/-! ## Attach and detach -/

theorem headWants_insert {chain : List Link} {pos : Nat} (hpos : pos ≠ 0) (l : Link) (h : headWants chain = true) :
    headWants (chain.take pos ++ l :: chain.drop pos) = true := by
  obtain ⟨k, rfl⟩ := Nat.exists_eq_succ_of_ne_zero hpos
  cases chain with
  | nil => cases h
  | cons head t => exact h

theorem headWants_eraseIdx {chain : List Link} {i : Nat} (hi : i ≠ 0) (h : headWants chain = true) :
    headWants (chain.eraseIdx i) = true := by
  obtain ⟨k, rfl⟩ := Nat.exists_eq_succ_of_ne_zero hi
  cases chain with
  | nil => cases h
  | cons head t => exact h

theorem keeps_attach (pos : Nat) (l : Link) : Moves KeepsInv (attach pos l) := by
  refine moves_of_get fun s => movesFrom_ite (fun _ => movesFrom_refuse _ s) fun _ =>
    movesFrom_ite (fun _ => movesFrom_refuse _ s) fun hpos => ?_
  have hpos : pos ≠ 0 := fun h0 => hpos (by simp [h0])
  exact movesFrom_bind inv_atoms (movesFrom_set (inv_atoms.links s _ (headWants_insert hpos _))) fun _ =>
    moves_bind inv_atoms (moves_runHandler inv_atoms pos false _ _) fun _ => keeps_answer _

theorem keeps_detach (i : Nat) : Moves KeepsInv (detach i) := by
  refine moves_bind inv_atoms (moves_get inv_atoms) fun s => ?_
  split
  · exact moves_refuse _
  · next hi =>
    have hi : i ≠ 0 := fun h0 => hi (by simp [h0])
    have herase : Moves KeepsInv (do modify fun s => { s with chain := s.chain.eraseIdx i }; answer .done : M Unit) :=
      moves_bind inv_atoms (moves_modify fun u => inv_atoms.links u _ (headWants_eraseIdx hi)) fun _ => keeps_answer _
    have hunmap (l : List Nat) : Moves KeepsInv (l.forM unmapPages) :=
      moves_forM inv_atoms (fun x => moves_unmapPages inv_atoms x) l
    have hrest : Moves KeepsInv (do
        match (← get).chain[i]? with
        | some l =>
          l.ovl.forM unmapPages
          (l.maps.map (·.2)).forM unmapPages
        | none => pure ()
        modify fun s => { s with chain := s.chain.eraseIdx i }
        answer .done : M Unit) := by
      refine moves_bind inv_atoms (moves_get inv_atoms) fun u => ?_
      split
      · exact moves_bind inv_atoms (hunmap _) fun _ => moves_bind inv_atoms (hunmap _) fun _ => herase
      · exact herase
    exact moves_bind inv_atoms (moves_get inv_atoms) fun u =>
      moves_ite (moves_bind inv_atoms (moves_stopWanting inv_atoms i) fun _ => hrest) hrest

/-! ## Storage management -/

theorem keeps_createBlock (len : Nat) (data : List Host.Cell) (flags : CellFlags) :
    Moves KeepsInv (createBlock len data flags) :=
  moves_of_get fun s => movesFrom_ite (fun _ => movesFrom_refuse _ s) fun _ =>
    movesFrom_ite (fun _ => movesFrom_refuse _ s) fun hwf =>
      movesFrom_bind inv_atoms (movesFrom_set (inv_create rfl (by simpa using hwf))) fun _ => keeps_answer _

theorem keeps_freeBlock (id : Nat) : Moves KeepsInv (freeBlock id) :=
  moves_of_get fun s => movesFrom_ite (fun _ => movesFrom_refuse _ s) fun _ =>
    movesFrom_ite (fun _ => movesFrom_refuse _ s) fun hmay =>
      movesFrom_bind inv_atoms (movesFrom_set (inv_free (by simpa using hmay))) fun _ => keeps_answer _

theorem keeps_resizeBlock (id len : Nat) : Moves KeepsInv (resizeBlock id len) := by
  refine moves_of_get fun s => movesFrom_ite (fun _ => movesFrom_refuse _ s) fun hlen =>
    movesFrom_ite (fun _ => movesFrom_refuse _ s) fun hmay => ?_
  have hlen : 1 ≤ len := Nat.one_le_iff_ne_zero.mpr fun h0 => hlen (by simp [h0])
  exact movesFrom_bind inv_atoms (movesFrom_set (inv_resize (by simpa using hmay) hlen)) fun _ => keeps_answer _

/-! ## The operations and the agent -/

theorem keeps_debugRead (q : DebugRead) : Moves KeepsInv (debugRead q) := by
  refine moves_bind inv_atoms (moves_get inv_atoms) fun s => ?_
  split
  · exact keeps_answer _
  · exact moves_refuse _

/-- An operation that answers nothing but that it is done. -/
theorem keeps_then_done {m : M Unit} (hm : Moves KeepsInv m) : Moves KeepsInv (do m; answer .done) :=
  moves_bind inv_atoms hm fun _ => keeps_answer .done

theorem keeps_hostOp (op : HostOp) : Moves KeepsInv (hostOp op) := by
  cases op with
  | powerOn c cc0 => exact fun _ _ _ he _ => powerOn_inv he
  | schedule t => exact moves_modify fun _ => id
  | run cc ic mode => exact keeps_startRun false cc ic mode
  | reset => exact keeps_resetCpu
  | startPlaying stream k => exact keeps_startPlaying stream k
  | startRecording => exact keeps_startRecording
  | stopRecording => exact keeps_stopRecording
  | holdOutOfSync => exact keeps_moveReplay .endOfFile .outOfSync
  | goLive => exact keeps_moveReplay .outOfSync .idle
  | attach pos l => exact keeps_attach pos l
  | detach i => exact keeps_detach i
  | load snap => exact keeps_loadSnapshot snap
  | save => exact moves_bind inv_atoms (moves_get inv_atoms) fun s => keeps_answer (.saved s.save)
  | map q => exact moves_bind inv_atoms (moves_mapPages inv_atoms q) fun h => keeps_answer (.mapped h)
  | unmap h => exact keeps_then_done (moves_unmapPages inv_atoms h)
  | createBlock len data flags => exact keeps_createBlock len data flags
  | freeBlock id => exact keeps_freeBlock id
  | resizeBlock id len => exact keeps_resizeBlock id len
  | setRegs ws => exact keeps_then_done (moves_modRegs inv_atoms _)
  | writeCell b k v => exact keeps_then_done (moves_pokeCell inv_atoms _ v)
  | setFlags b k f => exact keeps_then_done (moves_pokeFlags inv_atoms _ f)
  | setStackBreak v => exact keeps_then_done (moves_modify fun _ => id)
  | requestNMI => exact keeps_then_done (moves_modRegs inv_atoms _)
  | debugRead q => exact keeps_debugRead q

theorem keeps_agentStep : Moves KeepsInv (agentStep execute) := by
  refine moves_of_get fun s => ?_
  cases s.phase with
  | suspended =>
    cases s.hostOps with
    | nil => exact (moves_pure inv_atoms ()).movesFrom s
    | cons op rest => exact movesFrom_bind inv_atoms (movesFrom_set id) fun _ => keeps_hostOp op
  | scheduling => exact keeps_schedulerStep.movesFrom s
  | running byScheduler =>
    refine (moves_bind inv_atoms (keeps_runStep keeps_execute) fun e => ?_).movesFrom s
    cases e with
    | some e => exact keeps_runReturned byScheduler e
    | none => exact moves_pure inv_atoms ()

/-- A step that goes on is what the agent does next. -/
theorem agentStep_of_step {s t : State} (h : step s = .next t) : agentStep execute s = .ok () t := by
  unfold step stepWith at h
  split at h
  · cases h
  · cases h
  · exact perform_next_iff.mp h

/-- Settles O6: the instruction, the boundary step, the scheduler and every host operation keep it. -/
theorem soundnessKept : Obligations.SoundnessKept := fun s t hinv h => keeps_agentStep s () t (agentStep_of_step h) hinv

end Sys2Proof.Machine
end

section
/-! PROOFS of the family 20_memory.md. The stack check, the bus cycles with their waits, breakpoints and log, what reads find
after a store, and `map` with `unmap`. -/

namespace Sys2Proof.Machine

/-! ## Latching an exit -/

@[simp] theorem State.latched_mem (s : State) (c : Bool) (e : ExitReason) : (s.latched c e).mem = s.mem := by cases c <;> rfl
@[simp] theorem State.latched_cc (s : State) (c : Bool) (e : ExitReason) : (s.latched c e).cc = s.cc := by cases c <;> rfl
@[simp] theorem State.latched_mode (s : State) (c : Bool) (e : ExitReason) : (s.latched c e).mode = s.mode := by
  cases c <;> rfl

theorem run_latchExit (e : ExitReason) (s : State) : latchExit e s = .ok () (s.latched true e) := rfl

theorem latched_first {s : State} (e : ExitReason) (h : s.pendingExit = none) :
    s.latched true e = { s with pendingExit := some e } := by
  rw [State.latched, if_pos rfl, h, Option.getD_none]

/-- An exit already latched is kept (rule R124). -/
theorem latched_of_pending {s : State} {x : ExitReason} (e : ExitReason) (h : s.pendingExit = some x) :
    s.latched true e = s := by
  rw [State.latched, if_pos rfl, h, Option.getD_some, ← h]

/-- `StackCheck()` always completes (35_engine.md rule R205). -/
theorem run_stackCheck (s : State) : stackCheck s = .ok () s.stackChecked := by
  unfold stackCheck State.stackChecked
  rw [run_bind_ok (run_get s)]
  cases s.stackBreak with
  | none => rfl
  | some v =>
    dsimp only
    cases s.mode.brk && decide (v.toNat < s.regs.sp.toNat) <;> rfl

theorem stackChecked_none {s : State} (h : s.stackBreak = none) : s.stackChecked = s := by
  simp only [State.stackChecked, h]

theorem stackChecked_above {s : State} {v : Word} (h : s.stackBreak = some v) (hb : s.mode.brk = true)
    (hv : v.toNat < s.regs.sp.toNat) :
    s.stackChecked =
      { s with stackBreak := none, pendingExit := some (s.pendingExit.getD (.stackBreakpoint s.regs.sp)) } := by
  simp [State.stackChecked, h, hb, hv]

theorem stackChecked_idle {s : State} {v : Word} (h : s.stackBreak = some v)
    (hoff : s.mode.brk = false ∨ s.regs.sp.toNat ≤ v.toNat) : s.stackChecked = s := by
  have hc : (s.mode.brk && decide (v.toNat < s.regs.sp.toNat)) = false := by
    rcases hoff with hb | hle
    · simp [hb]
    · simp [Nat.not_lt.mpr hle]
  simp [State.stackChecked, h, hc]

/-- Settles O16: `Latch` by whether an exit is pending, and the stack check by its limit. -/
theorem stackBreakpoint : Obligations.StackBreakpoint := fun s => by
  simp only [run_stackCheck, run_latchExit]
  refine ⟨fun e => ?latch, fun h => by rw [stackChecked_none h], fun v h => ⟨?first, ?later, ?idle⟩⟩
  case latch =>
    cases hp : s.pendingExit with
    | none => rw [latched_first e hp, if_pos rfl]
    | some x => rw [latched_of_pending e hp, if_neg (Option.some_ne_none x)]
  case first =>
    intro hb hv hp
    rw [stackChecked_above h hb hv, hp]
    rfl
  case later =>
    intro e hb hv hp
    rw [stackChecked_above h hb hv, hp, Option.getD_some, ← hp]
  case idle => exact fun hoff => by rw [stackChecked_idle h hoff]

/-! ## The parts of a cycle that a Cell flag or a mode flag switches -/

@[simp] theorem State.logged_mem (s : State) (c : Bool) (k : AccessKind) (a : Word) : (s.logged c k a).mem = s.mem := by
  cases c <;> rfl
@[simp] theorem State.logged_cc (s : State) (c : Bool) (k : AccessKind) (a : Word) : (s.logged c k a).cc = s.cc := by
  cases c <;> rfl
@[simp] theorem State.logged_mode (s : State) (c : Bool) (k : AccessKind) (a : Word) : (s.logged c k a).mode = s.mode := by
  cases c <;> rfl
@[simp] theorem State.flushed_mem (s : State) (c : Bool) : (s.flushed c).mem = s.mem := by cases c <;> rfl
@[simp] theorem State.flushed_cc (s : State) (c : Bool) : (s.flushed c).cc = s.cc := by cases c <;> rfl
@[simp] theorem State.flushed_mode (s : State) (c : Bool) : (s.flushed c).mode = s.mode := by cases c <;> rfl

@[simp] theorem State.cellWritten_mem (s : State) (r : Ref) (f : CellFlags) (a : Word) (v : Byte) :
    (s.cellWritten r f a v).mem = s.mem.setData r v := by simp [State.cellWritten]
@[simp] theorem State.cellWritten_cc (s : State) (r : Ref) (f : CellFlags) (a : Word) (v : Byte) :
    (s.cellWritten r f a v).cc = s.cc := by simp [State.cellWritten]
@[simp] theorem State.cellWritten_mode (s : State) (r : Ref) (f : CellFlags) (a : Word) (v : Byte) :
    (s.cellWritten r f a v).mode = s.mode := by simp [State.cellWritten]

section Switched
variable {α : Type}

/-- What only a flag and the mode together switch on is skipped where they are not both on. -/
theorem run_if_off {f g : Bool} {m n : M α} {s : State} (h : (g && f) = false) :
    (if (f && g) = true then m else n) s = n s := by
  rw [if_neg (by simp [Bool.and_comm f, h])]

theorem run_latch_if (c : Bool) (e : ExitReason) (m : M α) (s : State) :
    (if c = true then latchExit e >>= fun (_ : Unit) => m else m) s = m (s.latched c e) := by cases c <;> rfl

theorem run_log_if (c : Bool) (k : AccessKind) (a : Word) (m : M α) (s : State) :
    (if c = true then logAccess k a >>= fun (_ : Unit) => m else m) s = m (s.logged c k a) := by cases c <;> rfl

theorem run_flush_if (c : Bool) (m : M α) (s : State) :
    (if c = true then (get : M State) >>= fun t => callOut (.videoUpdate t.cc) >>= fun (_ : Unit) => m else m) s =
      m (s.flushed c) := by cases c <;> rfl

theorem run_log_last (c : Bool) (k : AccessKind) (a : Word) (s : State) :
    (if c = true then logAccess k a else pure ()) s = .ok () (s.logged c k a) := by cases c <;> rfl

theorem run_bind_error {β : Type} {m : M α} {f : α → M β} {s t : State} {e : Stop} (h : m s = .error e t) :
    (m >>= f) s = .error e t := by rw [run_bind, h]

end Switched

/-! ## Waits (rule R130) -/

theorem waitTime_off {s : State} {f : CellFlags} (a : Word) (m : Mapping) (h : (s.mode.wait && f.wait) = false) :
    s.waitTime a m f = 0 := by simp [State.waitTime, h]

theorem waitTime_table {s : State} {f : CellFlags} {m : Mapping} {t : WaitTable} (a : Word)
    (h : (s.mode.wait && f.wait) = true) (ht : m.wait = some t) : s.waitTime a m f = (t.at s.cc).toNat := by
  simp [State.waitTime, h, ht]

theorem waitTime_fun {s : State} {f : CellFlags} {m : Mapping} (a : Word) (h : (s.mode.wait && f.wait) = true)
    (ht : m.wait = none) : s.waitTime a m f = s.cfg.addWaitCycles s.cc a - s.cc := by
  simp [State.waitTime, h, ht]

/-- Only the collaborator can answer a negative wait, and that is a fault. -/
theorem run_waitFor_negative {s : State} {a : Word} {m : Mapping} {c : CellView} (hw : s.waitTime a m c.flags < 0) :
    waitFor a m c s = .error (.fault .negativeWait) s := by
  cases hon : s.mode.wait && c.flags.wait with
  | false => simp [waitTime_off a m hon] at hw
  | true =>
    cases ht : m.wait with
    | some t =>
      rw [waitTime_table a hon ht] at hw
      omega
    | none =>
      rw [waitTime_fun a hon ht] at hw
      rw [run_waitFor_fun hon ht, if_pos hw]

theorem run_waitFor {s : State} {a : Word} {m : Mapping} {c : CellView} (hw : 0 ≤ s.waitTime a m c.flags)
    (hr : s.room (s.waitTime a m c.flags)) : waitFor a m c s = .ok () (s.after (s.waitTime a m c.flags)) := by
  cases hon : s.mode.wait && c.flags.wait with
  | false =>
    rw [run_waitFor_off a m hon, waitTime_off a m hon, State.after, Int.add_zero]
  | true =>
    cases ht : m.wait with
    | some t =>
      rw [waitTime_table a hon ht] at hr ⊢
      rw [run_waitFor_table hon ht, run_tick_room hr]
    | none =>
      rw [waitTime_fun a hon ht] at hw hr ⊢
      rw [run_waitFor_fun hon ht, if_neg (Int.not_lt.mpr hw), run_tick_room hr]

/-- A cycle begins by waiting at one Cell of the active mapping, and a negative wait is its end. -/
theorem run_cycle_negative {α : Type} {s : State} {a : Word} {m : Mapping} {c : CellView}
    {f : Mapping → State → CellView → Unit → M α} (ref : Mapping → Ref) (hm : activeMapping s.cfg s.pages a = some m)
    (hc : s.mem.cell? ((ref m).at s.cfg a) = some c) (hw : s.waitTime a m c.flags < 0) :
    (active a >>= fun m => (get : M State) >>= fun t => cellAt ((ref m).at t.cfg a) >>= fun c =>
      waitFor a m c >>= f m t c) s = .error (.fault .negativeWait) s := by
  rw [run_bind_ok (run_active hm), run_bind_ok (run_get s), run_bind_ok (run_cellAt hc),
    run_bind_error (run_waitFor_negative hw)]

/-! ## The cycles that begin at a read Cell (rules R120, R122 and R123) -/

section ReadSide
variable {s : State} {a : Word} {m : Mapping} {c : CellView} (hm : activeMapping s.cfg s.pages a = some m)
  (hc : s.mem.cell? (m.read.at s.cfg a) = some c)
include hm hc

theorem run_mr_negative (hw : s.waitTime a m c.flags < 0) : mr a s = .error (.fault .negativeWait) s := by
  unfold mr
  exact run_cycle_negative (·.read) hm hc hw

theorem run_m1_negative (hw : s.waitTime a m c.flags < 0) : m1 a s = .error (.fault .negativeWait) s := by
  unfold m1
  exact run_cycle_negative (·.read) hm hc hw

theorem run_internal1_negative (hw : s.waitTime a m c.flags < 0) :
    internal1 a s = .error (.fault .negativeWait) s := by
  unfold internal1
  rw [if_pos (by rfl)]
  exact run_cycle_negative (·.read) hm hc hw

theorem run_internal1_waits (hw : 0 ≤ s.waitTime a m c.flags) (hr : s.room (s.waitTime a m c.flags + 1)) :
    internal1 a s = .ok () (s.after (s.waitTime a m c.flags + 1)) := by
  unfold internal1
  rw [if_pos (by rfl), run_bind_ok (run_active hm), run_bind_ok (run_get s), run_bind_ok (run_cellAt hc),
    run_bind_ok (run_waitFor hw (State.room_le hr (by omega)))]
  exact (run_tick_room (by simpa using hr)).trans (by rw [State.after_after])

theorem run_mr_waits (hw : 0 ≤ s.waitTime a m c.flags) (hr : s.room (s.waitTime a m c.flags + 3))
    (hmm : (s.mode.mmio && c.flags.mmioRead) = false) :
    mr a s = .ok c.data ((((s.after (s.waitTime a m c.flags)).latched (s.mode.brk && c.flags.breakRead)
      (.readBreakpoint a)).logged (s.mode.log && c.flags.logAccess) .read a).after 3) := by
  unfold mr
  rw [run_bind_ok (run_active hm), run_bind_ok (run_get s), run_bind_ok (run_cellAt hc),
    run_bind_ok (run_waitFor hw (State.room_le hr (by omega))), run_bind_ok (run_get _), run_if_off (by exact hmm),
    run_bind_ok (run_pure _ _)]
  dsimp only
  rw [run_bind_ok (run_cellAt (by exact hc)), run_latch_if, run_log_if,
    run_bind_ok (run_tick_room (by simpa [State.room, Int.add_assoc] using hr)), run_pure, Bool.and_comm c.flags.breakRead,
    Bool.and_comm c.flags.logAccess, State.after_mode]

theorem run_m1_waits (hw : 0 ≤ s.waitTime a m c.flags) (hr : s.room (s.waitTime a m c.flags + 4))
    (hmm : (s.mode.mmio && c.flags.mmioRead) = false) (hp : (s.mode.patch && c.flags.patchOnExec) = false) :
    m1 a s = .ok c.data ((((s.after (s.waitTime a m c.flags)).logged (s.mode.log && c.flags.logAccess) .fetch a).withRegs
      fun g => { g with r := bumpR g.r }).after 4) := by
  unfold m1
  rw [run_bind_ok (run_active hm), run_bind_ok (run_get s), run_bind_ok (run_cellAt hc),
    run_bind_ok (run_waitFor hw (State.room_le hr (by omega))), run_bind_ok (run_get _), run_if_off (by exact hmm),
    run_bind_ok (run_pure _ _)]
  dsimp only
  rw [run_bind_ok (run_cellAt (by exact hc)), run_if_off (by exact hp), run_bind_ok (run_pure _ _),
    run_bind_ok (run_cellAt (by exact hc)), run_log_if, run_bind_ok (run_refresh _),
    run_bind_ok (run_tick_room (by simpa [State.room, Int.add_assoc] using hr)), run_pure, Bool.and_comm c.flags.logAccess,
    State.after_mode]

end ReadSide

/-- Settles O17: the wait is the first part of either cycle that can stop it. -/
theorem readCycle : Obligations.ReadCycle := fun _ _ _ _ hm hc =>
  ⟨fun hw => ⟨run_mr_negative hm hc hw, run_internal1_negative hm hc hw⟩, run_internal1_waits hm hc, run_mr_waits hm hc⟩

/-- Settles O18: as a read, with the patch in place of the breakpoint. -/
theorem fetchCycle : Obligations.FetchCycle := fun _ _ _ _ hm hc => ⟨run_m1_negative hm hc, run_m1_waits hm hc⟩

/-! ## The write cycle (rule R121) -/

/-- A Cell is there after a write of data as it was before, with its own flags. -/
theorem exists_cell?_setData {m : Memory} {q : Ref} {c : CellView} (r : Ref) (v : Byte) (hc : m.cell? q = some c) :
    ∃ c', (m.setData r v).cell? q = some c' ∧ c'.flags = c.flags := by
  have h := Memory.cell?_setData_flags m r q v
  rwa [hc, Option.map_some, Option.map_eq_some_iff] at h

theorem run_writeCell_unhandled {s : State} {r : Ref} {c : CellView} (a : Word) (v : Byte) (hc : s.mem.cell? r = some c)
    (hmm : (s.mode.mmio && c.flags.mmioWrite) = false) :
    writeCell r a v s = .ok () (s.cellWritten r c.flags a v) := by
  obtain ⟨c', hc', hf⟩ := exists_cell?_setData r v hc
  unfold writeCell
  rw [run_bind_ok (run_cellAt hc), run_bind_ok (run_get s), run_flush_if, run_bind_ok (run_modify _ _), run_if_off hmm]
  dsimp only
  rw [run_bind_ok (run_cellAt (by simpa using hc')), run_latch_if, run_log_last, hf, Bool.and_comm c.flags.videoTrack,
    Bool.and_comm c.flags.breakWrite, Bool.and_comm c.flags.logAccess, State.flushed_mem, State.cellWritten]

section WriteSide
variable {s : State} {a : Word} {m : Mapping} {c : CellView} (v : Byte) (hm : activeMapping s.cfg s.pages a = some m)
  (hc : s.mem.cell? (m.write.at s.cfg a) = some c)
include hm hc

theorem run_mw_negative (hw : s.waitTime a m c.flags < 0) : mw a v s = .error (.fault .negativeWait) s := by
  unfold mw
  exact run_cycle_negative (·.write) hm hc hw

/-- After the waits and the primary Cell, the cycle writes the shadow Cell, if there is one, and takes its time. -/
theorem run_mw_primary (hw : 0 ≤ s.waitTime a m c.flags) (hr : s.room (s.waitTime a m c.flags))
    (hmm : (s.mode.mmio && c.flags.mmioWrite) = false) :
    mw a v s = m.shadow.elim (tick 3) (fun r => writeCell (r.at s.cfg a) a v >>= fun _ => tick 3)
      ((s.after (s.waitTime a m c.flags)).cellWritten (m.write.at s.cfg a) c.flags a v) := by
  unfold mw
  rw [run_bind_ok (run_active hm), run_bind_ok (run_get s), run_bind_ok (run_cellAt hc), run_bind_ok (run_waitFor hw hr),
    run_bind_ok (run_writeCell_unhandled (c := c) a v (by exact hc) (by exact hmm))]
  cases m.shadow <;> rfl

end WriteSide

/-- Settles O19: the primary Cell by `run_mw_primary`; the shadow Cell has the flags it had before the primary was written. -/
theorem writeCycle : Obligations.WriteCycle := fun s a v m c hm hc => by
  refine ⟨run_mw_negative v hm hc, fun hw hr hmm => ?_⟩
  have hprim := run_mw_primary v hm hc hw (State.room_le hr (by omega)) hmm
  refine ⟨fun hsh => ?plain, fun r d hsh hd hmd => ?shadow⟩
  case plain =>
    rw [hprim, hsh]
    exact run_tick_room (by simpa [State.room, Int.add_assoc] using hr)
  case shadow =>
    obtain ⟨d', hd', hf⟩ := exists_cell?_setData (m.write.at s.cfg a) v hd
    rw [hprim, hsh, ← hf, Option.elim_some,
      run_bind_ok (run_writeCell_unhandled a v (by simpa using hd') (by simpa [hf] using hmd))]
    exact run_tick_room (by simpa [State.room, Int.add_assoc] using hr)

/-! ## What reads find after a store -/

theorem mappingOk_of_active {s : State} {a : Word} {m : Mapping} (hinv : s.Inv)
    (hm : activeMapping s.cfg s.pages a = some m) : m.ok s.cfg s.mem = true := by
  obtain ⟨-, -, hpages, -⟩ := hinv
  simp only [PageTable.ok, Bool.and_eq_true, List.all_eq_true] at hpages
  obtain ⟨-, hstacks⟩ := hpages
  unfold activeMapping at hm
  split at hm
  · next x rest hst =>
    cases hm
    exact (hstacks _ (List.mem_of_getElem? hst)).2 _ List.mem_cons_self
  · cases hm

theorem Cfg.offset_lt (c : Cfg) (a : Word) : a.toNat % c.pageSize < c.pageSize := Nat.mod_lt _ c.pageSize_pos

theorem cell?_at_of_fits {m : Memory} {c : Cfg} {r : Ref} (a : Word) (h : r.fits m c.pageSize = true) :
    ∃ d, m.cell? (r.at c a) = some d := by
  have ho := c.offset_lt a
  unfold Ref.fits at h
  dsimp only [Memory.cell?, Ref.at]
  cases hb : m.block? r.block with
  | none => simp [hb] at h
  | some b =>
    simp only [hb, decide_eq_true_eq] at h
    exact ⟨_, if_pos (by omega)⟩

theorem cell?_of_readRef {s : State} {b : Word} {r : Ref} (hinv : s.Inv) (hr : s.readRef b = some r) :
    r.block ≠ sinkId ∧ ∃ c, s.mem.cell? r = some c := by
  obtain ⟨m, hm, rfl⟩ := Option.map_eq_some_iff.mp hr
  have hok := mappingOk_of_active hinv hm
  simp only [Mapping.ok, Bool.and_eq_true, bne_iff_ne] at hok
  obtain ⟨⟨⟨hread, -⟩, -⟩, hsink⟩ := hok
  exact ⟨hsink, cell?_at_of_fits b hread⟩

theorem cell?_of_writeRef {s : State} {a : Word} {r : Ref} (hinv : s.Inv) (hr : s.writeRef a = some r) :
    ∃ c, s.mem.cell? r = some c := by
  obtain ⟨m, hm, rfl⟩ := Option.map_eq_some_iff.mp hr
  have hok := mappingOk_of_active hinv hm
  simp only [Mapping.ok, Bool.and_eq_true] at hok
  obtain ⟨⟨⟨-, hwrite⟩, -⟩, -⟩ := hok
  exact cell?_at_of_fits a hwrite

theorem Memory.cell?_setAt_other {m : Memory} {q : Option Ref} {r : Ref} (v : Byte) (h : q ≠ some r) :
    (m.setAt q v).cell? r = m.cell? r := by
  cases q with
  | none => rfl
  | some q => exact Memory.cell?_setData_other fun he => h (congrArg some he.symm)

theorem exists_cell?_setAt {m : Memory} {r : Ref} {c : CellView} (q : Option Ref) (v : Byte) (hc : m.cell? r = some c) :
    ∃ c', (m.setAt q v).cell? r = some c' := by
  cases q with
  | none => exact ⟨c, hc⟩
  | some q =>
    obtain ⟨c', hc', -⟩ := exists_cell?_setData q v hc
    exact ⟨c', hc'⟩

/-- Storage stays in canonical form between the two writes of a store. -/
theorem setAt_writeRef_wf {s : State} (a : Word) (v : Byte) (hinv : s.Inv) : (s.mem.setAt (s.writeRef a) v).wf = true := by
  cases hw : s.writeRef a with
  | none => exact hinv.1
  | some w =>
    obtain ⟨c, hc⟩ := cell?_of_writeRef hinv hw
    exact Memory.setData_wf hinv.1 (by rw [hc]; rfl)

theorem cell?_stored_other {s : State} {a : Word} {r : Ref} (v : Byte) (hw : s.writeRef a ≠ some r)
    (hs : s.shadowRef a ≠ some r) : (s.stored a v).cell? r = s.mem.cell? r := by
  rw [State.stored, Memory.cell?_setAt_other v hs, Memory.cell?_setAt_other v hw]

/-- The Cell written last holds the byte: the shadow Cell, or the primary one where the shadow is another Cell. -/
theorem cell?_stored_same {s : State} {a : Word} {r : Ref} {c : CellView} (v : Byte) (hinv : s.Inv)
    (hr : s.writeRef a = some r ∨ s.shadowRef a = some r) (hc : s.mem.cell? r = some c) :
    ∃ c', (s.stored a v).cell? r = some c' ∧ c'.data = v := by
  by_cases hs : s.shadowRef a = some r
  · obtain ⟨c', hc'⟩ := exists_cell?_setAt (s.writeRef a) v hc
    refine ⟨{ c' with data := v }, ?_, rfl⟩
    rw [State.stored, hs]
    exact (Memory.cell?_setData_same (setAt_writeRef_wf a v hinv)).trans (by rw [hc']; rfl)
  · have hw : s.writeRef a = some r := hr.resolve_right hs
    refine ⟨{ c with data := v }, ?_, rfl⟩
    rw [State.stored, Memory.cell?_setAt_other v hs, hw]
    exact (Memory.cell?_setData_same hinv.1).trans (by rw [hc]; rfl)

theorem byteAt_of_cell {s : State} {b : Word} {r : Ref} {c : CellView} (hr : s.readRef b = some r)
    (hc : s.mem.cell? r = some c) : s.byteAt b = c.data := by
  simp [State.byteAt, hr, hc]

/-- Settles O20: by whether the read Cell is one of those written; no read reference is at SINK. -/
theorem storeReadsBack : Obligations.StoreReadsBack := fun s a b v r hinv hr => by
  obtain ⟨hsink, c, hc⟩ := cell?_of_readRef hinv hr
  have hr' : (s.store a v).readRef b = some r := hr
  have hother : s.writeRef a ≠ some r → s.shadowRef a ≠ some r → (s.store a v).byteAt b = s.byteAt b := fun hw hs => by
    rw [byteAt_of_cell hr hc, byteAt_of_cell hr' ((cell?_stored_other v hw hs).trans hc)]
  refine ⟨fun hwritten => ?written, hother, fun w hw hblock hs => hother ?sink (by simp [hs])⟩
  case written =>
    obtain ⟨c', hc', hv⟩ := cell?_stored_same v hinv hwritten hc
    rw [byteAt_of_cell hr' hc', hv]
  case sink =>
    intro hwr
    rw [hw, Option.some.injEq] at hwr
    exact hsink (hwr ▸ hblock)

/-! ## `map` and `unmap` (rules R102 and R103) -/

theorem holds_iff {p : PageTable} {h : Nat} : p.holds h = true ↔ ∃ stack ∈ p, ∃ x ∈ stack, x.handle = h := by
  simp only [PageTable.holds, List.any_eq_true, beq_iff_eq]

/-- Whether removing a handle would leave some page without a mapping. -/
def PageTable.emptiedBy (p : PageTable) (h : Nat) : Bool :=
  p.any fun st => !st.isEmpty && (st.filter (·.handle != h)).isEmpty

theorem emptiedBy_iff {p : PageTable} {h : Nat} :
    p.emptiedBy h = true ↔ ∃ stack ∈ p, stack ≠ [] ∧ ∀ x ∈ stack, x.handle = h := by
  simp [PageTable.emptiedBy]

theorem run_unmapPages (h : Nat) (s : State) :
    unmapPages h s =
      if s.pages.holds h && !s.pages.emptiedBy h then .ok () { s with pages := s.pages.remove h }
      else .error (.refused .badUnmap) s := by
  unfold unmapPages
  rw [run_bind_ok (run_get s), ← PageTable.emptiedBy]
  cases s.pages.holds h <;> cases s.pages.emptiedBy h <;> rfl

theorem run_unmapPages_unknown {h : Nat} {s : State} (hno : ∀ stack ∈ s.pages, ∀ x ∈ stack, x.handle ≠ h) :
    unmapPages h s = .error (.refused .badUnmap) s := by
  have hholds : s.pages.holds h = false := by
    rw [Bool.eq_false_iff, Ne, holds_iff]
    rintro ⟨stack, hst, x, hx, he⟩
    exact hno stack hst x hx he
  rw [run_unmapPages, hholds]
  rfl

theorem run_unmapPages_last {h : Nat} {s : State} (hlast : ∃ stack ∈ s.pages, stack ≠ [] ∧ ∀ x ∈ stack, x.handle = h) :
    unmapPages h s = .error (.refused .badUnmap) s := by
  rw [run_unmapPages, emptiedBy_iff.mpr hlast, Bool.not_true, Bool.and_false]
  rfl

theorem run_unmapPages_held {h : Nat} {s : State} (hheld : ∃ stack ∈ s.pages, ∃ x ∈ stack, x.handle = h)
    (hkeep : ∀ stack ∈ s.pages, stack ≠ [] → ∃ x ∈ stack, x.handle ≠ h) :
    unmapPages h s = .ok () { s with pages := s.pages.remove h } := by
  have hnone : s.pages.emptiedBy h = false := by
    rw [Bool.eq_false_iff, Ne, emptiedBy_iff]
    rintro ⟨stack, hst, hne, hall⟩
    obtain ⟨x, hx, hxh⟩ := hkeep stack hst hne
    exact hxh (hall x hx)
  rw [run_unmapPages, holds_iff.mpr hheld, hnone]
  rfl

theorem run_mapPages_bad {q : MapReq} {s : State} (h : q.ok s.cfg s.mem = false) :
    mapPages q s = .error (.refused .misalignedMap) s := by
  unfold mapPages
  rw [run_bind_ok (run_get s), h]
  rfl

theorem run_mapPages {q : MapReq} {s : State} (h : q.ok s.cfg s.mem = true) (hs : q.read.block ≠ sinkId) :
    mapPages q s = .ok s.nextHandle
      { s with pages := s.pages.push s.cfg q s.nextHandle, nextHandle := s.nextHandle + 1 } := by
  unfold mapPages
  rw [run_bind_ok (run_get s), h, beq_eq_false_iff_ne.mpr hs]
  rfl

section Push
variable {p : PageTable} {c : Cfg} {q : MapReq} {k : Nat} (h : Nat)

theorem push_getElem?_inside {stack : List Mapping} (hlo : q.start / c.pageSize ≤ k)
    (hhi : k < q.start / c.pageSize + q.len / c.pageSize) (hk : p[k]? = some stack) :
    (p.push c q h)[k]? = some (q.page c h (k - q.start / c.pageSize) :: stack) := by
  simp [PageTable.push, hk, hlo, hhi]

theorem push_getElem?_outside (hout : k < q.start / c.pageSize ∨ q.start / c.pageSize + q.len / c.pageSize ≤ k) :
    (p.push c q h)[k]? = p[k]? := by
  have hnot : ¬(q.start / c.pageSize ≤ k ∧ k < q.start / c.pageSize + q.len / c.pageSize) := by omega
  simp [PageTable.push, hnot]

end Push

theorem Cfg.pageSize_mul_nPages {c : Cfg} (h : c.pageBits ≤ 16) : c.pageSize * c.nPages = 65536 := by
  rw [Cfg.pageSize, Cfg.nPages, ← Nat.pow_add, Nat.add_sub_cancel' h]

/-- A good request covers at least one page, and only pages of the PageTable: a page of more than 65536 Cells has no good
request. -/
theorem pages_of_ok {q : MapReq} {c : Cfg} {m : Memory} (h : q.ok c m = true) :
    0 < q.len / c.pageSize ∧ q.start / c.pageSize + q.len / c.pageSize ≤ c.nPages := by
  simp only [MapReq.ok, Bool.and_eq_true, decide_eq_true_eq] at h
  obtain ⟨⟨⟨⟨⟨⟨hstart, hlen⟩, hpos⟩, htop⟩, -⟩, -⟩, -⟩ := h
  obtain ⟨i, hi⟩ := Nat.dvd_of_mod_eq_zero hstart
  obtain ⟨n, hn⟩ := Nat.dvd_of_mod_eq_zero hlen
  have hps := c.pageSize_pos
  have hnpos : 0 < n := Nat.pos_of_ne_zero fun h0 => by simp [hn, h0] at hpos
  rw [hi, hn, Nat.mul_div_cancel_left _ hps, Nat.mul_div_cancel_left _ hps]
  refine ⟨hnpos, ?_⟩
  rw [hi, hn, ← Nat.mul_add] at htop
  have hbits : c.pageBits ≤ 16 := by
    have hone : c.pageSize ≤ 2 ^ 16 := Nat.le_trans (Nat.le_mul_of_pos_right _ (by omega)) htop
    exact (Nat.pow_le_pow_iff_right (by decide)).mp hone
  exact Nat.le_of_mul_le_mul_left (htop.trans_eq (Cfg.pageSize_mul_nPages hbits).symm) hps

/-- A page of the request is in the PageTable. -/
theorem exists_page_of_ok {q : MapReq} {c : Cfg} {m : Memory} {p : PageTable} {k : Nat} (hq : q.ok c m = true)
    (hlen : p.length = c.nPages) (hhi : k < q.start / c.pageSize + q.len / c.pageSize) : ∃ stack, p[k]? = some stack := by
  have htop := (pages_of_ok hq).2
  exact ⟨_, List.getElem?_eq_getElem (by omega)⟩

theorem push_held {q : MapReq} {c : Cfg} {m : Memory} {p : PageTable} (h : Nat) (hq : q.ok c m = true)
    (hlen : p.length = c.nPages) : ∃ stack ∈ p.push c q h, ∃ x ∈ stack, x.handle = h := by
  have hhi : q.start / c.pageSize < q.start / c.pageSize + q.len / c.pageSize := Nat.lt_add_of_pos_right (pages_of_ok hq).1
  obtain ⟨stack, hk⟩ := exists_page_of_ok hq hlen hhi
  exact ⟨_, List.mem_of_getElem? (push_getElem?_inside h (Nat.le_refl _) hhi hk), _, List.mem_cons_self, rfl⟩

/-- A handle that no page held is on top of the pages it was pushed to, and nowhere else. -/
theorem remove_push {p : PageTable} {h : Nat} (c : Cfg) (q : MapReq)
    (hnew : ∀ stack ∈ p, ∀ x ∈ stack, x.handle ≠ h) : (p.push c q h).remove h = p := by
  have hold : ∀ stack ∈ p, stack.filter (·.handle != h) = stack := fun stack hst =>
    List.filter_eq_self.mpr fun x hx => bne_iff_ne.mpr (hnew stack hst x hx)
  refine List.ext_getElem? fun k => ?_
  rw [PageTable.remove, List.getElem?_map]
  by_cases hin : q.start / c.pageSize ≤ k ∧ k < q.start / c.pageSize + q.len / c.pageSize
  · cases hk : p[k]? with
    | none => simp [PageTable.push, hk]
    | some stack =>
      have htop (j : Nat) : ((q.page c h j).handle != h) = false := bne_self_eq_false h
      rw [push_getElem?_inside h hin.1 hin.2 hk, Option.map_some, List.filter_cons_of_neg (by simp [htop]),
        hold stack (List.mem_of_getElem? hk)]
  · rw [push_getElem?_outside h (by omega)]
    cases hk : p[k]? with
    | none => rfl
    | some stack => rw [Option.map_some, hold stack (List.mem_of_getElem? hk)]

/-- A push takes no mapping away from a page. -/
theorem exists_subset_of_mem_push {p : PageTable} {c : Cfg} {q : MapReq} {h : Nat} {stack : List Mapping}
    (hst : stack ∈ p.push c q h) :
    ∃ old ∈ p, old ⊆ stack := by
  simp only [PageTable.push, List.mem_mapIdx] at hst
  obtain ⟨k, hk, rfl⟩ := hst
  refine ⟨p[k], List.getElem_mem hk, fun x hx => ?_⟩
  split
  · exact List.mem_cons_of_mem _ hx
  · exact hx

/-- `unmap` of the handle just mapped. -/
theorem run_unmapPages_push {s : State} {q : MapReq} {h n : Nat} (hnew : ∀ stack ∈ s.pages, ∀ x ∈ stack, x.handle ≠ h)
    (hne : ∀ stack ∈ s.pages, stack ≠ []) (hheld : ∃ stack ∈ s.pages.push s.cfg q h, ∃ x ∈ stack, x.handle = h) :
    unmapPages h { s with pages := s.pages.push s.cfg q h, nextHandle := n } = .ok () { s with nextHandle := n } := by
  rw [run_unmapPages_held hheld fun stack hst _ => ?_]
  · simp only [remove_push s.cfg q hnew]
  · obtain ⟨old, hold, hsub⟩ := exists_subset_of_mem_push hst
    obtain ⟨x, hx⟩ := List.exists_mem_of_ne_nil _ (hne old hold)
    exact ⟨x, hsub hx, hnew old hold x hx⟩

/-- Settles O21: a fresh handle is in no page, so removing it takes away exactly what was pushed. -/
theorem mapThenUnmap : Obligations.MapThenUnmap := by
  refine ⟨fun s h => ⟨run_unmapPages_unknown, run_unmapPages_last, run_unmapPages_held⟩, fun s q hfresh hne => ?_⟩
  have hnew : ∀ stack ∈ s.pages, ∀ x ∈ stack, x.handle ≠ s.nextHandle := fun st hst x hx => Nat.ne_of_lt (hfresh st hst x hx)
  refine ⟨run_mapPages_bad, fun hq hs hlen => ⟨_, run_mapPages hq hs, rfl, fun k hlo hhi => ?inside,
    fun k => push_getElem?_outside _, run_unmapPages_push hnew hne (push_held _ hq hlen)⟩⟩
  case inside =>
    obtain ⟨stack, hk⟩ := exists_page_of_ok hq hlen hhi
    exact ⟨stack, hk, push_getElem?_inside _ hlo hhi hk⟩

end Sys2Proof.Machine
end

section
/-! PROOFS of the family 30_encoding.md. -/

namespace Sys2Proof

/-- The page a form's opcode stands on; `none` is the unprefixed page (rule R168). -/
def Form.page : Form → Option Page
  | .rotR .. | .rotHL _ | .bitR .. | .bitHL _ | .resR .. | .resHL _ | .setR .. | .setHL _ => some .cb
  | .ldAI | .ldAR | .ldIA | .ldRA | .ldRpAtNn .. | .ldNnRp .. | .ldBlock .. | .cpBlock .. | .neg _ | .edNop _ | .im _ |
    .adcHL _ | .sbcHL _ | .rld | .rrd | .reti | .retn _ | .inRC _ | .inFC | .outCR _ | .outC0 | .inBlock .. |
    .outBlock .. => some .ed
  | .ldRIdx i .. | .ldIdxR i .. | .ldIdxN i .. | .ldXX i .. | .ldXN i .. | .ldXyNn i _ | .ldXyAtNn i _ | .ldNnXy i _ |
    .ldSpXy i | .pushXy i | .popXy i | .exSpXy i | .aluIdx _ i _ | .aluX _ i _ | .incIdx i _ | .incX i _ |
    .decIdx i _ | .decX i _ | .addXy i _ | .incXy i | .decXy i | .jpXy i | .ignored i _ => some (.index i)
  | .rotIdx _ i _ _ | .bitIdx _ i _ _ | .resIdx _ i _ _ | .setIdx _ i _ _ => some (.xcb i)
  | _ => none

/-- What a row stands for: its instruction at any operand. -/
inductive Row.Gives : Row Instr → Instr → Prop
  | plain (i) : Gives (.plain i) i
  | imm8 (f n) : Gives (.imm8 f) (f n)
  | late8 (f n) : Gives (.late8 f) (f n)
  | imm16 (f w) : Gives (.imm16 f) (f w)
  | imm8x2 (f d n) : Gives (.imm8x2 f) (f d n)
  | dropped (i) : Gives (.dropped i) i

/-- A row of a page given by its four quarters, one for each value of field `x` (rule R161). -/
def rowIn {α : Type} (quarters : List (List α)) (op : Byte) : Option α :=
  (quarters[opX op]?).bind fun rows => rows[op.toNat % 64]?

noncomputable section

def mainQuarters : List (List (Row Instr)) := [mainPage0, mainPage1, mainPage2, mainPage3]

def Page.quarters : Page → List (List (Row Instr))
  | .cb => [cbPage0, cbPage1, cbPage2, cbPage3]
  | .ed => [edPage0, edPage1, edPage2, edPage3]
  | .index .ix => [ixPage0, ixPage1, ixPage2, ixPage3]
  | .index .iy => [iyPage0, iyPage1, iyPage2, iyPage3]
  | .xcb _ => []

def xcbQuarters : XY → List (List (Byte → Instr))
  | .ix => [ixcbPage0, ixcbPage1, ixcbPage2, ixcbPage3]
  | .iy => [iycbPage0, iycbPage1, iycbPage2, iycbPage3]

/-- The row at the place in the opcode tables where a form's encoding leads. -/
def Form.row (f : Form) : Option (Row Instr) :=
  match f.page, f.encode with
  | none, op :: _ => rowIn mainQuarters op
  | some (.xcb x), [_, _, _, op] => (rowIn (xcbQuarters x) op).map .imm8
  | some p, _ :: op :: _ => rowIn p.quarters op
  | _, _ => none

end

end Sys2Proof

namespace Sys2Proof.Machine

/-! ## Discarded prefixes -/

theorem runStep_of_latch {ex : Byte → M Unit} {s : State} {op : Byte} (hl : s.latch = some op) :
    runStep ex s = (ex op >>= fun _ => pure none) { s with latch := none } := by
  unfold runStep
  rw [run_bind_ok (run_get s), hl]
  rfl

/-- In a run, the step at a latched byte is the rest of the instruction that byte begins (rule R221). -/
theorem agentStep_of_latch {ex : Byte → M Unit} {s : State} {b : Bool} {op : Byte} (hp : s.phase = .running b)
    (hl : s.latch = some op) : agentStep ex s = ex op { s with latch := none } := by
  unfold agentStep
  rw [run_bind_ok (run_get s)]
  simp only [hp, run_bind, runStep_of_latch hl]
  generalize ex op _ = out
  cases out <;> rfl

/-- Settles O10: a discarded index byte has the meaning `ignoredPrefix`, and a latched byte comes before every check. -/
theorem prefixChainHasNoBoundary : Obligations.PrefixChainHasNoBoundary := by
  refine ⟨fun i s x op hi => ?_, fun s b op hf hr hp hl => ?_⟩
  · rw [exec_eq_runForm, hi]
    exact perform_ok (run_modify _ s)
  · simp only [step, stepWith, hf, hr, perform, agentStep_of_latch hp hl]

/-! ## Totality and exactness -/

section Total
variable {α : Type} (tb : Tables α) (a b c d : Byte) (t : List Byte)

theorem operands_not_truncated (r : Row α) : r.operands (a :: b :: t) ≠ .error .truncated := by
  cases r <;> exact nofun

theorem decodeXcb_not_truncated (i : XY) : decodeXcb tb i (a :: b :: t) ≠ .error .truncated := by
  simp only [decodeXcb]
  cases tb.xcb i b <;> exact nofun

theorem decodePage_not_truncated (p : Page) : decodePage tb p (a :: b :: c :: t) ≠ .error .truncated := by
  simp only [decodePage]
  split
  · exact nofun
  · exact decodeXcb_not_truncated tb b c t _
  · exact nofun
  · exact operands_not_truncated b c t _

/-- No instruction is longer than four bytes (rule R160). -/
theorem decodeWith_not_truncated : decodeWith tb (a :: b :: c :: d :: t) ≠ .error .truncated := by
  simp only [decodeWith]
  split
  · exact nofun
  · exact decodePage_not_truncated tb b c d t _
  · exact operands_not_truncated b c (d :: t) _

end Total

theorem decode_total (a b c d : Byte) (rest : List Byte) : ∃ i t, decode (a :: b :: c :: d :: rest) = .ok (i, t) := by
  cases h : decode (a :: b :: c :: d :: rest) with
  | ok x => exact ⟨x.1, x.2, rfl⟩
  | error e =>
    obtain rfl := decode_only_truncated h
    exact absurd h (decodeWith_not_truncated instrTables a b c d rest)

/-- What is decoded is well-formed, and its encoding is the bytes read. -/
theorem decode_exact {bytes t : List Byte} {i : Instr} (h : decode bytes = .ok (i, t)) :
    i.wf = true ∧ ∃ u, t = i.form.unread ++ u ∧ bytes = encode i ++ u := by
  have hform : decodeWith formTables bytes = .ok (i.form, t) := by rw [decode_form, h]; rfl
  obtain ⟨f, rest, u, hok, hwf, hbytes, hrest⟩ | herr := decodeWith_ok bytes
  · obtain ⟨rfl, rfl⟩ : i.form = f ∧ t = rest := by simpa [hform] using hok
    exact ⟨hwf, u, hrest, hbytes⟩
  · rw [hform] at herr; cases herr

/-- Settles O2: every page has every row, so decoding can only run out of bytes; and every row's operands are those its
form encodes. -/
theorem decodingIsTotalAndExact : Obligations.DecodingIsTotalAndExact :=
  ⟨decode_total, fun _ _ _ => decode_exact⟩

/-! ## From a row to decoding -/

section Rows
variable {i : Instr} {r : Row Instr} {op : Byte}

/-- A row of another kind than `dropped` reads back the operands its instruction is encoded with. -/
theorem operands_of_gives {pre : List Byte} (hg : r.Gives i) (hk : RowOk pre (mapRow Instr.form r))
    (hd : ∀ j, r ≠ .dropped j) :
    i.form.unread = [] ∧ ∃ ops, encode i = pre ++ ops ∧ ∀ rest, r.operands (ops ++ rest) = .ok (i, rest) := by
  cases hg with
  | dropped => exact absurd rfl (hd i)
  | plain =>
    obtain ⟨-, henc, hun, -⟩ := hk
    exact ⟨hun, [], by simpa [encode] using henc, fun _ => rfl⟩
  | imm8 g n | late8 g n =>
    obtain ⟨-, henc, hun, -⟩ := hk n
    exact ⟨hun, [n], by simpa [encode] using henc, fun _ => rfl⟩
  | imm16 g w =>
    obtain ⟨-, henc, hun, -⟩ := hk w
    exact ⟨hun, [lo w, hi w], by simpa [encode] using henc, fun _ => by simp [Row.operands]⟩
  | imm8x2 g d n =>
    obtain ⟨-, henc, hun, -⟩ := hk d n
    exact ⟨hun, [d, n], by simpa [encode] using henc, fun _ => rfl⟩

theorem decode_encode_of_main (hr : instrTables.main op = some r) (hg : r.Gives i) (rest : List Byte) :
    decode (encode i ++ rest) = .ok (i, i.form.unread ++ rest) := by
  have hk : RowOk [op] (mapRow Instr.form r) := by
    have hform : mainForm op = mapRow Instr.form r := by simpa [formTables, hr] using formTables_eq.main op
    exact hform ▸ mainForm_ok op
  have hd : ∀ j, r ≠ .dropped j := by
    rintro j rfl
    obtain ⟨x, op', hpre, -⟩ := hk
    cases hpre
  obtain ⟨hun, ops, henc, hread⟩ := operands_of_gives hg hk hd
  have hdec (t : List Byte) : decode (op :: t) = r.operands t := by
    simp only [decode, decodeWith, hr]
    cases hg <;> rfl
  rw [henc, hun, List.singleton_append, List.cons_append, hdec]
  exact hread rest

theorem decode_prefix {p : Page} (hp : ∀ x, p ≠ .xcb x) (t : List Byte) :
    decode (p.bytes ++ t) = decodePage instrTables p t := by
  match p with
  | .cb | .ed | .index .ix | .index .iy => rfl
  | .xcb x => exact absurd rfl (hp x)

theorem decode_encode_of_page {p : Page} (hr : instrTables.page p op = some r) (hg : r.Gives i) (rest : List Byte) :
    decode (encode i ++ rest) = .ok (i, i.form.unread ++ rest) := by
  have hp : ∀ x, p ≠ .xcb x := by
    rintro x rfl
    cases hr
  have hk : RowOk (p.bytes ++ [op]) (mapRow Instr.form r) :=
    pageForm_ok p op _ (by rw [formTables_eq.page, hr]; rfl)
  by_cases hd : ∃ j, r = .dropped j
  · obtain ⟨j, rfl⟩ := hd
    cases hg
    obtain ⟨x, op', hpre, -, henc, hun, -⟩ := hk
    obtain rfl : op = op' := by simpa using congrArg List.getLast? hpre
    have hbytes : encode i = p.bytes ++ [op] := by rw [hpre]; exact henc
    rw [hbytes, hun, List.append_assoc, decode_prefix hp]
    simp [decodePage, hr]
  · obtain ⟨hun, ops, henc, hread⟩ := operands_of_gives hg hk fun j hj => hd ⟨j, hj⟩
    rw [henc, hun, List.append_assoc, List.append_assoc, decode_prefix hp]
    have hdec (t : List Byte) : decodePage instrTables p (op :: t) = r.operands t := by
      simp only [decodePage, hr]
      cases hg <;> first | rfl | exact absurd ⟨_, rfl⟩ hd
    exact (hdec _).trans (hread rest)

theorem decode_encode_of_xcb {x : XY} {g : Byte → Instr} (hr : instrTables.xcb x op = some g) (d : Byte) (rest : List Byte) :
    decode (encode (g d) ++ rest) = .ok (g d, (g d).form.unread ++ rest) := by
  have hform : xcbForm x op = fun d => (g d).form := by simpa [formTables, hr] using formTables_eq.xcb x op
  obtain ⟨-, henc, hun, -⟩ := xcbForm_ok x d op
  rw [hform] at henc hun
  have hdec : decode (x.prefixByte :: 0xCB :: d :: op :: rest) = decodeXcb instrTables x (d :: op :: rest) := by
    cases x <;> rfl
  rw [encode, henc, hun]
  exact hdec.trans (by simp [decodeXcb, hr])

end Rows

/-! ## Every instruction has its row -/

theorem getElem?_quarters {α : Type} {l0 l1 l2 l3 : List α} (h0 : l0.length = 64) (h1 : l1.length = 64)
    (h2 : l2.length = 64) (op : Byte) : (l0 ++ l1 ++ l2 ++ l3)[op.toNat]? = rowIn [l0, l1, l2, l3] op := by
  have hop := op.isLt
  simp only [rowIn, opX, List.getElem?_append, List.length_append, h0, h1, h2]
  split_ifs with hlt2 hlt1 hlt0
  · rw [show op.toNat / 64 = 0 by omega, show op.toNat % 64 = op.toNat by omega]; rfl
  · rw [show op.toNat / 64 = 1 by omega, show op.toNat % 64 = op.toNat - 64 by omega]; rfl
  · rw [show op.toNat / 64 = 2 by omega, show op.toNat % 64 = op.toNat - (64 + 64) by omega]; rfl
  · rw [show op.toNat / 64 = 3 by omega, show op.toNat % 64 = op.toNat - (64 + 64 + 64) by omega]; rfl

theorem main_eq_rowIn (op : Byte) : instrTables.main op = rowIn mainQuarters op := getElem?_quarters rfl rfl rfl op

theorem page_eq_rowIn (p : Page) (op : Byte) : instrTables.page p op = rowIn p.quarters op :=
  match p with
  | .cb | .ed | .index .ix | .index .iy => getElem?_quarters rfl rfl rfl op
  | .xcb _ => rfl

theorem xcb_eq_rowIn (x : XY) (op : Byte) : instrTables.xcb x op = rowIn (xcbQuarters x) op :=
  match x with
  | .ix | .iy => getElem?_quarters rfl rfl rfl op

/-- The row a form's encoding leads to is one the decoder comes to on that encoding. -/
theorem decode_encode_of_row {i : Instr} {r : Row Instr} (hr : i.form.row = some r) (hg : r.Gives i) (rest : List Byte) :
    decode (encode i ++ rest) = .ok (i, i.form.unread ++ rest) := by
  unfold Form.row at hr
  split at hr
  · rw [← main_eq_rowIn] at hr
    exact decode_encode_of_main hr hg rest
  · rw [← xcb_eq_rowIn] at hr
    obtain ⟨g, hx, rfl⟩ := Option.map_eq_some_iff.mp hr
    cases hg
    exact decode_encode_of_xcb hx _ rest
  · rw [← page_eq_rowIn] at hr
    exact decode_encode_of_page hr hg rest
  · cases hr

set_option maxRecDepth 10000 in
theorem row_edNop {op : Byte} (h : (Form.edNop op).wf = true) : (Form.edNop op).row = some (.plain (.edNop op)) := by
  refine byte_cases (P := fun op => (Form.edNop op).wf = true → (Form.edNop op).row = some (.plain (.edNop op)))
    (fun k hk => ?_) op h
  fin_cases k <;> first
    | rfl
    | cases hk

/-- Every instruction the encoding has is given by the row its form leads to: one row for each constructor, and one for each
value of a field that tells mirrors apart. -/
theorem gives_of_form {i : Instr} {f : Form} (hf : i.form = f) (hwf : f.wf = true) : ∃ r, f.row = some r ∧ r.Gives i := by
  -- unfolds the match in `Instr.form` here, once, and not in each case
  set_option smartUnfolding false in
  conv at hf => lhs; whnf
  cases i <;> subst hf
  case edNop op => exact ⟨_, row_edNop hwf, .plain _⟩
  case retn y =>
    -- at `y = 1` the row is that of `RETI`, and the form is not well-formed
    fin_cases y <;> first
      | exact ⟨_, rfl, .plain _⟩
      | cases hwf
  case neg y => fin_cases y <;> exact ⟨_, rfl, .plain _⟩
  case im_0 m | im_0_1 m | im_1 m | im_2 m => cases m <;> exact ⟨_, rfl, .plain _⟩
  all_goals first
    | (refine ⟨_, rfl, ?_⟩; constructor)
    | (rename_i z; fin_cases z <;> exact ⟨_, rfl, .imm8 _ _⟩)

/-- Settles O1: every well-formed instruction stands in the table at the row its encoding leads to, and that row reads back
its operands. -/
theorem decodeOfEncode : Obligations.DecodeOfEncode := by
  intro i rest hwf
  obtain ⟨r, hr, hg⟩ := gives_of_form rfl hwf
  exact decode_encode_of_row hr hg rest

end Sys2Proof.Machine
end

section
/-! PROOFS of the family 35_engine.md. The boundary step's checks in their order, the step that fetches and executes, and the
time every instruction takes where its cycles are calm. -/

-- Elaborated one proof after another, as the test files are: every thread's stack counts against the check's memory limit.
set_option Elab.async false

namespace Sys2Proof.Machine

/-! ## A step inside a run -/

section Running
variable {ex : Byte → M Unit} {s t : State} {b : Bool} {e : ExitReason}

/-- A run that ends answers its caller (55_scheduler_replay.md rule R643 step 6). -/
theorem run_runReturned (b : Bool) (e : ExitReason) (s : State) : runReturned b e s = .ok () (s.returned b e) := by
  cases b with
  | false => rfl
  | true => cases e <;> rfl

/-- In a run, the agent makes one step of it; an exit reason goes to the run's caller. -/
theorem agentStep_of_running (hp : s.phase = .running b) :
    agentStep ex s = (runStep ex >>= fun exit => exit.elim (pure ()) (runReturned b)) s := by
  unfold agentStep
  rw [run_bind_ok (run_get s), hp]
  exact congrArg (fun k => (runStep ex >>= k) s) (funext fun exit => by cases exit <;> rfl)

theorem agentStep_of_exit (hp : s.phase = .running b) (h : runStep ex s = .ok (some e) t) :
    agentStep ex s = .ok () (t.returned b e) := by
  rw [agentStep_of_running hp, run_bind_ok h]
  exact run_runReturned b e t

/-- What a run does without an exit reason is all the agent does. -/
theorem agentStep_of_goesOn {m : M Unit} (hp : s.phase = .running b)
    (h : runStep ex s = (m >>= fun _ => pure none) s) : agentStep ex s = m s := by
  rw [agentStep_of_running hp, run_bind, h, run_bind]
  cases m s <;> rfl

theorem step_unmarked (hf : s.faulted = none) (hr : s.refused = none) : step s = perform (agentStep execute) s := by
  simp only [step, stepWith, hf, hr]

/-- With no byte latched, a step of a run is the boundary step (35_engine.md rule R221). -/
theorem runStep_of_no_latch (hl : s.latch = none) : runStep ex s = boundaryStep ex s := by
  unfold runStep
  rw [run_bind_ok (run_get s), hl]

/-- An exit reason of the boundary step ends the run. -/
theorem step_of_exit (hf : s.faulted = none) (hr : s.refused = none) (hp : s.phase = .running b) (hl : s.latch = none)
    (h : boundaryStep execute s = .ok (some e) t) : step s = .next (t.returned b e) := by
  rw [step_unmarked hf hr]
  exact perform_ok (agentStep_of_exit hp ((runStep_of_no_latch hl).trans h))

end Running

/-! ## The first four checks (rule R202 steps 1 to 4) -/

section Checks
variable {ex : Byte → M Unit} {s : State} {b : Bool} {e : ExitReason}

theorem boundaryStep_pending (he : s.pendingExit = some e) :
    boundaryStep ex s = .ok (some e) { s with pendingExit := none } := by
  unfold boundaryStep
  rw [run_bind_ok (run_get s), he]
  rfl

theorem boundaryStep_no_pending (he : s.pendingExit = none) :
    boundaryStep ex s = (if s.replayMode = .outOfSync then pure (some .outOfSync)
      else if s.targetCc ≤ s.cc then pure (some .cycleLimitReached)
      else if s.targetIc ≤ s.ic then pure (some .instructionLimitReached)
      else boundaryAct ex : M (Option ExitReason)) s := by
  unfold boundaryStep
  rw [run_bind_ok (run_get s), he]

/-- Where the first four checks pass, the boundary step is the rest of it. -/
theorem boundaryStep_atBoundary (h : s.atBoundary b) : boundaryStep ex s = boundaryAct ex s := by
  obtain ⟨-, -, -, -, he, hsync, hcc, hic⟩ := h
  rw [boundaryStep_no_pending he, if_neg hsync, if_neg (Int.not_le.mpr hcc), if_neg (Nat.not_le.mpr hic)]

end Checks

/-- Settles O11: a mark comes before the agent, and each check of the boundary step before the next. -/
theorem boundaryReturnOrder : Obligations.BoundaryReturnOrder := by
  refine ⟨fun s f hf => ?fault, fun s r hf hr => ?refusal, fun s b hf hr hp hl => ?boundary⟩
  case fault => simp only [step, stepWith, hf]
  case refusal => simp only [step, stepWith, hf, hr]
  case boundary =>
    refine ⟨fun e he => ?pending, fun he hsync => ?outOfSync, fun he hsync hcc => ?cycles,
      fun he hsync hcc hic => ?instructions⟩ <;> refine step_of_exit hf hr hp hl ?_
    case pending => exact boundaryStep_pending he
    case outOfSync => rw [boundaryStep_no_pending he, if_pos hsync]; rfl
    case cycles => rw [boundaryStep_no_pending he, if_neg hsync, if_pos hcc]; rfl
    case instructions =>
      rw [boundaryStep_no_pending he, if_neg hsync, if_neg (Int.not_le.mpr hcc), if_pos hic]; rfl

/-! ## The exec breakpoint (rule R204) -/

section Breakpoint
variable {ex : Byte → M Unit} {s : State} {b : Bool}

/-- Whether an exec breakpoint is looked for at all: not in the middle of HALT, nor where the run has just reported it. -/
def State.checksExecBreak (s : State) : Bool := !s.regs.halted && s.mode.brk && s.execBpSkip != some s.regs.pc

theorem run_execBreakHit_unchecked (h : s.checksExecBreak = false) : execBreakHit s = .ok false s := by
  unfold execBreakHit
  rw [run_bind_ok (run_get s)]
  exact congrFun (if_neg (by simpa [State.checksExecBreak] using h)) s

/-- Looking at the Cell changes nothing. -/
theorem run_execBreakHit_cell {r : Ref} {c : CellView} (h : s.checksExecBreak = true) (hr : s.readRef s.regs.pc = some r)
    (hc : s.mem.cell? r = some c) : execBreakHit s = .ok c.flags.breakExec s := by
  obtain ⟨m, hm, rfl⟩ := Option.map_eq_some_iff.mp hr
  unfold execBreakHit
  rw [run_bind_ok (run_get s)]
  refine (congrFun (if_pos h) s).trans ?_
  rw [run_bind_ok (run_active hm), run_bind_ok (run_cellAt hc), run_pure]

/-- At a boundary that lets it execute, no exec breakpoint is hit. -/
theorem run_execBreakHit_atExecute (h : s.atExecute b) : execBreakHit s = .ok false s := by
  obtain ⟨-, -, -, hpass⟩ := h
  cases hcheck : s.checksExecBreak with
  | false => exact run_execBreakHit_unchecked hcheck
  | true =>
    obtain ⟨⟨hh, hb⟩, hs⟩ : (s.regs.halted = false ∧ s.mode.brk = true) ∧ s.execBpSkip ≠ some s.regs.pc := by
      simpa [State.checksExecBreak] using hcheck
    obtain hh' | hb' | hs' | ⟨r, c, hr, hc, hclear⟩ := hpass
    · simp [hh] at hh'
    · simp [hb] at hb'
    · exact absurd hs' hs
    · rw [run_execBreakHit_cell hcheck hr hc, hclear]

/-- With no NMI pending and no interrupt due, the boundary step goes on to the exec breakpoint (rule R202 step 7). -/
theorem boundaryAct_no_interrupt {hit : Bool} (hn : s.regs.nmiPending = false) (hi : s.intDue = false)
    (hb : execBreakHit s = .ok hit s) :
    boundaryAct ex s = (if hit then set { s with execBpSkip := some s.regs.pc } >>= fun (_ : PUnit) =>
        pure (some (.execBreakpoint s.regs.pc))
      else if s.regs.halted then haltedStep >>= fun _ => pure none
      else fetchOp >>= fun op => ex op >>= fun _ => pure none : M (Option ExitReason)) s := by
  unfold boundaryAct
  rw [run_bind_ok (run_get s), if_neg (by simp [hn]), if_neg (by simpa [State.intDue] using hi), run_bind_ok hb]

end Breakpoint

/-- Settles O12: the breakpoint check comes after the interrupts and before the fetch, and looking at the Cell is no cycle. -/
theorem execBreakpointReported : Obligations.ExecBreakpointReported := by
  intro s b r c hat hn hi hh hbrk hskip hr hc hhit
  have hcheck : s.checksExecBreak = true := by simp [State.checksExecBreak, hh, hbrk, hskip]
  have hlook : execBreakHit s = .ok true s := by rw [run_execBreakHit_cell hcheck hr hc, hhit]
  have ⟨hf, href, hp, hl, _⟩ := hat
  refine step_of_exit hf href hp hl ?_
  rw [boundaryStep_atBoundary hat, boundaryAct_no_interrupt hn hi hlook]
  rfl

/-! ## Fetching and executing (rules R202 step 8 and R220) -/

/-- At a boundary that lets it execute, a step fetches an opcode byte and executes the instruction it begins. -/
theorem step_atExecute {s : State} {b : Bool} (h : s.atExecute b) (hh : s.regs.halted = false) :
    step s = perform (fetchOp >>= execute) s := by
  have ⟨hat, hn, hi, _⟩ := h
  have ⟨hf, hr, hp, hl, _⟩ := hat
  have hrun : runStep execute s = ((fetchOp >>= execute) >>= fun _ => pure none) s := by
    rw [runStep_of_no_latch hl, boundaryStep_atBoundary hat,
      boundaryAct_no_interrupt hn hi (run_execBreakHit_atExecute h), if_neg Bool.false_ne_true, if_neg (by simp [hh]),
      bind_assoc]
  rw [step_unmarked hf hr]
  simp only [perform, agentStep_of_goesOn hp hrun]

/-- A form once its instruction is fetched: its meaning, then the bookkeeping, which a discarded index byte skips. -/
def executed (f : Form) : M Unit := do
  ofOutcome (perform (runForm f))
  if (← get).latch.isNone then completeInstr (isEiForm f)

/-- The instruction whose bytes stand at PC is fetched and executed. -/
theorem run_fetch_execute {s : State} {i : Instr} {rest : List Byte} (hdec : decode (s.bytesAt s.regs.pc) = .ok (i, rest))
    (hc : s.calmInstr i.form = true) (hr : s.room (fetchTime i.form)) :
    (fetchOp >>= execute) s = executed i.form (s.fetched i.form) := by
  have hform : decodeWith formTables (s.bytesAt s.regs.pc) = .ok (i.form, rest) := by rw [decode_form, hdec]; rfl
  have hexec : executeForm = fun op => fetchFrom formTables op >>= executed := rfl
  rw [execute_eq_executeForm, hexec, ← bind_assoc, run_bind_ok (run_fetchInstr hform hc hr)]

theorem run_completeInstr {s : State} (wasEi : Bool) (h : s.ic < 4294967295) :
    completeInstr wasEi s = .ok () (s.completed wasEi) := by
  unfold completeInstr
  rw [run_bind_ok (run_get s), if_neg (by omega), run_bind_ok (run_set _ s), run_stackCheck]
  rfl

section Executed
variable {i : Instr} {s t : State}

theorem run_executed (h : exec i s = .next t) :
    executed i.form s = (if t.latch.isNone then completeInstr (isEiForm i.form) else pure () : M Unit) t := by
  have hok : ofOutcome (perform (runForm i.form)) s = .ok () t := by rw [ofOutcome, ← exec_eq_runForm, h]
  unfold executed
  rw [run_bind_ok hok, run_bind_ok (run_get t)]

theorem run_executed_complete (h : exec i s = .next t) (hl : t.latch = none) (hic : t.ic < 4294967295) :
    executed i.form s = .ok () (t.completed (isEiForm i.form)) := by
  rw [run_executed h, hl]
  exact run_completeInstr _ hic

theorem run_executed_latched {op : Byte} (h : exec i s = .next t) (hl : t.latch = some op) :
    executed i.form s = .ok () t := by
  rw [run_executed h, hl]
  rfl

theorem run_executed_stop {e : Stop} (h : ofOutcome (exec i) s = .error e s) : executed i.form s = .error e s := by
  have hexec : exec i = perform (runForm i.form) := funext (exec_eq_runForm i)
  exact run_bind_error (hexec ▸ h)

end Executed

/-- Settles O9: the step is the fetched instruction executed, and each clause is one outcome of `exec`. -/
theorem stepRunsDecodedInstruction : Obligations.StepRunsDecodedInstruction := by
  intro s b i rest hat hh hdec hcalm hroom
  have hstep : step s = perform (executed i.form) (s.fetched i.form) := by
    rw [step_atExecute hat hh]
    simp only [perform, run_fetch_execute hdec hcalm hroom]
  rw [hstep]
  refine ⟨fun t h hl hic => perform_ok (run_executed_complete h hl hic),
    fun t op h hl => perform_ok (run_executed_latched h hl), fun f h => ?fault, fun r h => ?refusal⟩
  case fault => simp only [perform, run_executed_stop (e := .fault f) (by rw [ofOutcome, h])]
  case refusal => simp only [perform, run_executed_stop (e := .refused r) (by rw [ofOutcome, h])]

/-! ## Completion -/

/-- A form completes: where its cycles are calm and `cc` has room, its operation ends normally after exactly the form's
T-states. -/
def Completes (f : Form) : Prop :=
  ∀ s : State, s.calmExec f = true → s.room (s.execTime f) → ∃ t, runForm f s = .ok () t ∧ t.cc = s.cc + s.execTime f

section Conditional
variable (y : Cond) (e : Byte) (nn : Word)

theorem completes_jrCc : Completes (.jrCc y e) := fun s hcalm hroom => by
  simp only [State.calmExec, State.execTime] at hcalm hroom ⊢
  cases hcond : condHolds y s.regs.flags with
  | false => exact ⟨_, run_jrCc_not e hcond, by simp⟩
  | true =>
    simp only [hcond, Bool.not_true, Bool.false_or, if_true] at hcalm hroom ⊢
    exact ⟨_, run_jrCc_taken e hcond hcalm hroom, rfl⟩

theorem completes_djnz : Completes (.djnz e) := fun s hcalm hroom => by
  simp only [State.calmExec, State.execTime] at hcalm hroom ⊢
  by_cases hb : s.regs.b - 1 = 0
  · exact ⟨_, run_djnz_not e hb, by rw [if_pos hb, Int.add_zero]; rfl⟩
  · simp only [hb, beq_iff_eq, Bool.or_eq_true, false_or, if_false] at hcalm hroom ⊢
    exact ⟨_, run_djnz_taken e hb hcalm hroom, rfl⟩

theorem completes_callCc : Completes (.callCc y nn) := fun s hcalm hroom => by
  simp only [State.calmExec, State.execTime] at hcalm hroom ⊢
  cases hcond : condHolds y s.regs.flags with
  | false => exact ⟨_, run_callCc_not nn hcond, by simp⟩
  | true =>
    simp only [hcond, Bool.not_true, Bool.false_or, if_true, Bool.and_eq_true] at hcalm hroom ⊢
    obtain ⟨hidle, hpush⟩ := hcalm
    exact ⟨_, run_callCc_taken nn hcond hidle hpush hroom, rfl⟩

theorem completes_retCc : Completes (.retCc y) := fun s hcalm hroom => by
  simp only [State.calmExec, State.execTime, Bool.and_eq_true] at hcalm hroom ⊢
  obtain ⟨hidle, hpop⟩ := hcalm
  cases hcond : condHolds y s.regs.flags with
  | false =>
    simp only [hcond, Bool.false_eq_true, if_false] at hroom ⊢
    exact ⟨_, run_retCc_not hcond hidle hroom, rfl⟩
  | true =>
    simp only [hcond, Bool.not_true, Bool.false_or, if_true] at hpop hroom ⊢
    exact ⟨_, run_retCc_taken hcond hidle hpop hroom, rfl⟩

end Conditional

section Blocks
variable (dir : Dir) (rep : Bool)

theorem completes_ldBlock : Completes (.ldBlock dir rep) := fun s hcalm hroom => by
  simp only [State.calmExec, State.execTime, Bool.and_eq_true] at hcalm hroom ⊢
  obtain ⟨⟨hread, hwrite⟩, hidle⟩ := hcalm
  cases hagain : s.ldAgain rep with
  | false =>
    simp only [hagain, Bool.false_eq_true, if_false] at hroom ⊢
    exact ⟨_, run_ldBlock_last dir rep hagain hread hwrite hidle hroom, rfl⟩
  | true =>
    simp only [hagain, if_true] at hroom ⊢
    exact ⟨_, run_ldBlock_again dir rep hagain hread hwrite hidle hroom, rfl⟩

theorem completes_cpBlock : Completes (.cpBlock dir rep) := fun s hcalm hroom => by
  simp only [State.calmExec, State.execTime] at hcalm hroom ⊢
  cases hagain : s.cpAgain rep with
  | false =>
    simp only [hagain, Bool.false_eq_true, if_false] at hroom ⊢
    exact ⟨_, run_cpBlock_last dir rep hagain hcalm hroom, rfl⟩
  | true =>
    simp only [hagain, if_true] at hroom ⊢
    exact ⟨_, run_cpBlock_again dir rep hagain hcalm hroom, rfl⟩

theorem completes_inBlock : Completes (.inBlock dir rep) := fun s hcalm hroom => by
  simp only [State.calmExec, State.execTime, Bool.and_eq_true] at hcalm hroom ⊢
  obtain ⟨⟨⟨hidle, hin⟩, hwrite⟩, hback⟩ := hcalm
  cases hagain : s.ioAgain rep with
  | false =>
    simp only [hagain, Bool.false_eq_true, if_false] at hroom ⊢
    refine ⟨_, run_inBlock_last dir rep hagain hidle hin hwrite (State.room_le hroom (by omega)), ?_⟩
    simp only [State.after_cc, State.withRegs_cc, State.store_cc, input_cc]
    omega
  | true =>
    simp only [hagain, Bool.not_true, Bool.false_or, if_true] at hback hroom ⊢
    refine ⟨_, run_inBlock_again dir rep hagain hidle hin hwrite hback (State.room_le hroom (by omega)), ?_⟩
    simp only [State.after_cc, State.withRegs_cc, State.store_cc, input_cc]
    omega

theorem output_cc (s : State) (p : Word) (v : Byte) : (s.output p v).cc = s.cc + s.ioDelay p + 4 := rfl

/-- The port and the wait of a block output's cycle. -/
theorem ioDelay_beforeOut (s : State) :
    s.beforeOut.ioDelay s.beforeOut.regs.bc = (s.after 4).ioDelay (mkWord (s.regs.b - 1) s.regs.c) := rfl

theorem completes_outBlock : Completes (.outBlock dir rep) := fun s hcalm hroom => by
  simp only [State.calmExec, State.execTime, Bool.and_eq_true, ioDelay_beforeOut] at hcalm hroom ⊢
  obtain ⟨⟨⟨hidle, hread⟩, hout⟩, hback⟩ := hcalm
  cases hagain : s.ioAgain rep with
  | false =>
    simp only [hagain, Bool.false_eq_true, if_false] at hroom ⊢
    refine ⟨_, run_outBlock_last dir rep hagain hidle hread hout (State.room_le hroom (by omega)), ?_⟩
    simp only [State.after_cc, State.withRegs_cc, output_cc]
    omega
  | true =>
    simp only [hagain, Bool.not_true, Bool.false_or, if_true] at hback hroom ⊢
    refine ⟨_, run_outBlock_again dir rep hagain hidle hread hout hback (State.room_le hroom (by omega)), ?_⟩
    simp only [State.after_cc, State.withRegs_cc, output_cc]
    omega

end Blocks

/-- Every form completes: the equation of its operation gives the state it leaves. Forming `(HL)` makes no cycle, so it is
calm by definition. -/
theorem completes (f : Form) : Completes f := by
  intro s hcalm hroom
  cases f with
  | ldRR | ldRN | ldXX | ldXN | ldRpNn | ldXyNn | exAF | exDEHL | exx | aluR | aluN | aluX | incR | incX | decR | decX
  | daa | cpl | neg | ccf | scf | nop | edNop | halt | di | ei | im | rlca | rrca | rla | rra | rotR | bitR | resR | setR
  | jpNn | jpHL | jpXy | ignored =>
    refine ⟨_, rfl, ?_⟩
    exact (Int.add_zero s.cc).symm
  | jpCc y nn => exact ⟨_, run_jpCc y nn s, (Int.add_zero s.cc).symm⟩
  | ldRHL y => exact ⟨_, run_ld8_mem (m := .atHL) _ rfl hcalm hroom, rfl⟩
  | ldRIdx i y d =>
    obtain ⟨hea, hread⟩ := Bool.and_eq_true_iff.mp hcalm
    exact ⟨_, run_ld8_mem (m := .atIdx i d) _ hea hread hroom, rfl⟩
  | ldHLR z => exact ⟨_, run_st8 (m := .atHL) _ rfl hcalm hroom, rfl⟩
  | ldIdxR i z d =>
    obtain ⟨hea, hwrite⟩ := Bool.and_eq_true_iff.mp hcalm
    exact ⟨_, run_st8 (m := .atIdx i d) _ hea hwrite hroom, rfl⟩
  | ldHLN n => exact ⟨_, run_stHLImm n hcalm hroom, rfl⟩
  | ldIdxN i d n =>
    obtain ⟨hea, hwrite⟩ := Bool.and_eq_true_iff.mp hcalm
    exact ⟨_, run_stIdxImm i d n hea hwrite hroom, rfl⟩
  | ldAAt p => exact ⟨_, run_ldAAt p hcalm hroom, rfl⟩
  | ldANn nn => exact ⟨_, run_ldAFrom hcalm hroom, rfl⟩
  | ldAtA p => exact ⟨_, run_stAAt p hcalm hroom, rfl⟩
  | ldNnA nn => exact ⟨_, run_stATo hcalm hroom, rfl⟩
  | ldAI => exact ⟨_, run_ldAI hcalm hroom, rfl⟩
  | ldAR => exact ⟨_, run_ldAR hcalm hroom, rfl⟩
  | ldIA => exact ⟨_, run_ldIA hcalm hroom, rfl⟩
  | ldRA => exact ⟨_, run_ldRA hcalm hroom, rfl⟩
  | ldHLAtNn nn | ldXyAtNn _ nn | ldRpAtNn _ nn =>
    obtain ⟨hlow, hhigh⟩ := Bool.and_eq_true_iff.mp hcalm
    exact ⟨_, run_ld16Nn _ nn hlow hhigh hroom, rfl⟩
  | ldNnHL nn | ldNnXy _ nn | ldNnRp _ nn =>
    obtain ⟨hlow, hhigh⟩ := Bool.and_eq_true_iff.mp hcalm
    exact ⟨_, run_st16Nn _ nn hlow hhigh hroom, rfl⟩
  | ldSpHL | ldSpXy => exact ⟨_, run_ldSp _ hcalm hroom, rfl⟩
  | push | pushXy =>
    obtain ⟨hidle, hpush⟩ := Bool.and_eq_true_iff.mp hcalm
    exact ⟨_, run_push _ hidle hpush hroom, rfl⟩
  | pop | popXy => exact ⟨_, run_pop _ hcalm hroom, rfl⟩
  | exSpHL | exSpXy =>
    obtain ⟨hlow, hhigh⟩ := Bool.and_eq_true_iff.mp hcalm
    exact ⟨_, run_exSp _ hlow hhigh hroom, rfl⟩
  | ldBlock dir rep => exact completes_ldBlock dir rep s hcalm hroom
  | cpBlock dir rep => exact completes_cpBlock dir rep s hcalm hroom
  | aluHL op => exact ⟨_, run_alu_mem (m := .atHL) op rfl hcalm hroom, rfl⟩
  | aluIdx op i d =>
    obtain ⟨hea, hread⟩ := Bool.and_eq_true_iff.mp hcalm
    exact ⟨_, run_alu_mem (m := .atIdx i d) op hea hread hroom, rfl⟩
  | incHL => exact ⟨_, run_incMem (m := .atHL) rfl hcalm hroom, rfl⟩
  | incIdx i d =>
    obtain ⟨hea, hdata⟩ := Bool.and_eq_true_iff.mp hcalm
    exact ⟨_, run_incMem (m := .atIdx i d) hea hdata hroom, rfl⟩
  | decHL => exact ⟨_, run_decMem (m := .atHL) rfl hcalm hroom, rfl⟩
  | decIdx i d =>
    obtain ⟨hea, hdata⟩ := Bool.and_eq_true_iff.mp hcalm
    exact ⟨_, run_decMem (m := .atIdx i d) hea hdata hroom, rfl⟩
  | addHL | addXy => exact ⟨_, run_add16 _ _ hcalm hroom, rfl⟩
  | adcHL => exact ⟨_, run_adc16 _ hcalm hroom, rfl⟩
  | sbcHL => exact ⟨_, run_sbc16 _ hcalm hroom, rfl⟩
  | incRp | incXy => exact ⟨_, run_inc16 _ hcalm hroom, rfl⟩
  | decRp | decXy => exact ⟨_, run_dec16 _ hcalm hroom, rfl⟩
  | rotHL op => exact ⟨_, run_rotMem (m := .atHL) op none rfl hcalm hroom, rfl⟩
  | rotIdx op i d copy =>
    obtain ⟨hea, hdata⟩ := Bool.and_eq_true_iff.mp hcalm
    exact ⟨_, run_rotMem (m := .atIdx i d) op copy hea hdata hroom, rfl⟩
  | resHL b => exact ⟨_, run_resMem (m := .atHL) b none rfl hcalm hroom, rfl⟩
  | resIdx b i d copy =>
    obtain ⟨hea, hdata⟩ := Bool.and_eq_true_iff.mp hcalm
    exact ⟨_, run_resMem (m := .atIdx i d) b copy hea hdata hroom, rfl⟩
  | setHL b => exact ⟨_, run_setMem (m := .atHL) b none rfl hcalm hroom, rfl⟩
  | setIdx b i d copy =>
    obtain ⟨hea, hdata⟩ := Bool.and_eq_true_iff.mp hcalm
    exact ⟨_, run_setMem (m := .atIdx i d) b copy hea hdata hroom, rfl⟩
  | rld => exact ⟨_, run_rld hcalm hroom, rfl⟩
  | rrd => exact ⟨_, run_rrd hcalm hroom, rfl⟩
  | bitHL b => exact ⟨_, run_bitHL b hcalm hroom, rfl⟩
  | bitIdx b i d =>
    obtain ⟨hea, hread⟩ := Bool.and_eq_true_iff.mp hcalm
    exact ⟨_, run_bitIdx b i d hea hread hroom, rfl⟩
  | jr e => exact ⟨_, run_relative e hcalm hroom, rfl⟩
  | jrCc y e => exact completes_jrCc y e s hcalm hroom
  | djnz e => exact completes_djnz e s hcalm hroom
  | callNn nn =>
    obtain ⟨hidle, hpush⟩ := Bool.and_eq_true_iff.mp hcalm
    exact ⟨_, run_call nn hidle hpush hroom, rfl⟩
  | callCc y nn => exact completes_callCc y nn s hcalm hroom
  | ret => exact ⟨_, run_ret hcalm hroom, rfl⟩
  | retCc y => exact completes_retCc y s hcalm hroom
  | reti | retn => exact ⟨_, run_returnInterrupt hcalm hroom, rfl⟩
  | rst y =>
    obtain ⟨hidle, hpush⟩ := Bool.and_eq_true_iff.mp hcalm
    exact ⟨_, run_rst y hidle hpush hroom, rfl⟩
  | inAN n => exact ⟨_, run_inAN n hcalm hroom, (input_cc s _).trans (Int.add_assoc _ _ _)⟩
  | inRC y => exact ⟨_, run_inRC y.reg hcalm hroom, (input_cc s _).trans (Int.add_assoc _ _ _)⟩
  | inFC => exact ⟨_, run_inFC hcalm hroom, (input_cc s _).trans (Int.add_assoc _ _ _)⟩
  | outNA n => exact ⟨_, run_outNA n hcalm hroom, Int.add_assoc _ _ _⟩
  | outCR y => exact ⟨_, run_outCR y.reg hcalm hroom, Int.add_assoc _ _ _⟩
  | outC0 => exact ⟨_, run_outC _ hcalm hroom, Int.add_assoc _ _ _⟩
  | inBlock dir rep => exact completes_inBlock dir rep s hcalm hroom
  | outBlock dir rep => exact completes_outBlock dir rep s hcalm hroom

/-- Settles O48: an instruction is its form's operation, and every form completes. -/
theorem everyInstructionCompletes : Obligations.EveryInstructionCompletes := fun i s hcalm hroom => by
  obtain ⟨t, hrun, hcc⟩ := completes i.form s hcalm hroom
  exact ⟨t, exec_of_form rfl hrun, hcc⟩

end Sys2Proof.Machine
end

section
/-! PROOFS of the family 41_load.md. Each clause is the equation of the operation its form runs (Laws/Operations.lean), carried
over to the instruction by `exec_of_form`; a rule that several forms share is settled once, over their common register. -/

namespace Sys2Proof.Machine

/-! ## Registers and bytes -/

/-- Settles O22: none of the six forms makes a cycle, so each is its register update on every state. -/
theorem loadRegisterForms : Obligations.LoadRegisterForms := fun _ s =>
  ⟨fun y z hi => exec_of_form hi (run_ld8_reg y.reg z.reg s),
   fun y n hi => exec_of_form hi (run_ld8_imm y.reg n s),
   fun x y z hi => exec_of_form hi (run_ld8_reg (y.sub x) (z.sub x) s),
   fun x y n hi => exec_of_form hi (run_ld8_imm (y.sub x) n s),
   fun p nn hi => exec_of_form hi (run_ld16Imm p.reg nn s),
   fun x nn hi => exec_of_form hi (run_ld16Imm x.reg nn s)⟩

/-- No `Reg8` is part of WZ, so it does not matter whether WZ or the register is written first. -/
theorem Regs.set8_with_wz (g : Regs) (r : Reg8) (v : Byte) (w : Word) :
    { g with wz := w }.set8 r v = { g.set8 r v with wz := w } := by
  cases r <;> rfl

/-- An indexed load forms its address first (5 T-states, which leave it in WZ) and then reads the byte. -/
theorem run_ldRIdx {s : State} (x : XY) (dst : Reg8) (d : Byte) (hidle : s.calmIdle (s.regs.pc - 1) = true)
    (hread : s.calmRead (s.regs.indexed x d) = true) (hroom : s.room 8) :
    ld8 dst (.atIdx x d) s = .ok () ((s.withRegs fun g =>
      { g.set8 dst (s.byteAt (g.indexed x d)) with wz := g.indexed x d }).after 8) := by
  simp only [← Regs.set8_with_wz]
  exact run_ld8_mem (m := .atIdx x d) dst hidle hread hroom

/-- Settles O23: the two register destinations read through a memory operand, the accumulator forms from an address. -/
theorem loadFromMemoryForms : Obligations.LoadFromMemoryForms := fun _ _ =>
  ⟨fun y hi hread hroom => exec_of_form hi (run_ld8_mem (m := .atHL) y.reg rfl hread hroom),
   fun x y d hi hidle hread hroom => exec_of_form hi (run_ldRIdx x y.reg d hidle hread hroom),
   fun p hi hread hroom => exec_of_form hi (run_ldAAt p hread hroom),
   fun _ hi hread hroom => exec_of_form hi (run_ldAFrom hread hroom)⟩

/-- Settles O24: each form stores through `(HL)`, an indexed address or an address of its own. -/
theorem storeForms : Obligations.StoreForms := fun _ _ =>
  ⟨fun z hi hwrite hroom => exec_of_form hi (run_st8 (m := .atHL) z.reg rfl hwrite hroom),
   fun n hi hwrite hroom => exec_of_form hi (run_stHLImm n hwrite hroom),
   fun x z d hi hidle hwrite hroom => exec_of_form hi (run_st8 (m := .atIdx x d) z.reg hidle hwrite hroom),
   fun x d n hi hidle hwrite hroom => exec_of_form hi (run_stIdxImm x d n hidle hwrite hroom),
   fun p hi hwrite hroom => exec_of_form hi (run_stAAt p hwrite hroom),
   fun _ hi hwrite hroom => exec_of_form hi (run_stATo hwrite hroom)⟩

/-- The flags `LD A,I` and `LD A,R` leave, bit by bit (rule R312). -/
theorem ldAirFlags_eq (v : Byte) (iff2 : Bool) (f : Byte) :
    ldAirFlags v iff2 (unpackF f) =
      { s := v.getLsbD 7, z := decide (v = 0), y := v.getLsbD 5, h := false, x := v.getLsbD 3, pv := iff2, n := false,
        c := f.getLsbD 0 } := rfl

/-- Settles O25: `F` is the pack of `ldAirFlags`, and unpacking gives the flags back. -/
theorem specialRegisterLoads : Obligations.SpecialRegisterLoads := by
  intro i s hidle hroom
  refine ⟨fun v hload => ⟨(ldAirFlags v s.regs.iff2 s.regs.flags).pack, ?_, ?_⟩,
    fun hi => exec_of_form hi (run_ldIA hidle hroom), fun hi => exec_of_form hi (run_ldRA hidle hroom)⟩
  · obtain ⟨hi, rfl⟩ | ⟨hi, rfl⟩ := hload
    · exact exec_of_form hi (run_ldAI hidle hroom)
    · exact exec_of_form hi (run_ldAR hidle hroom)
  · rw [unpackF_pack]
    exact ldAirFlags_eq v _ _

/-! ## Words and the stack -/

/-- Settles O26: the forms of a load are one operation on their pair, and so are the forms of a store. -/
theorem wordMemoryForms : Obligations.WordMemoryForms := by
  intro i s nn r hroom
  constructor
  · intro hform hlow hhigh
    have hrun := run_ld16Nn r nn hlow hhigh hroom
    obtain ⟨hi, rfl⟩ | ⟨x, hi, rfl⟩ | ⟨p, hi, rfl⟩ := hform <;> exact exec_of_form hi hrun
  · intro hform hlow hhigh
    have hrun := run_st16Nn r nn hlow hhigh hroom
    obtain ⟨hi, rfl⟩ | ⟨x, hi, rfl⟩ | ⟨p, hi, rfl⟩ := hform <;> exact exec_of_form hi hrun

/-- Settles O27: the two forms of each rule are one operation on their pair. -/
theorem stackForms : Obligations.StackForms := by
  intro i s r
  refine ⟨fun hform hidle hroom => ?loadSp, fun hform hidle hhigh hlow hroom => ?push,
    fun hform hlow hhigh hroom => ?pop⟩
  case loadSp =>
    have hrun := run_ldSp r hidle hroom
    obtain ⟨hi, rfl⟩ | ⟨x, hi, rfl⟩ := hform <;> exact exec_of_form hi hrun
  case push =>
    have hrun := run_push r hidle (Bool.and_eq_true_iff.mpr ⟨hhigh, hlow⟩) hroom
    obtain ⟨p, hi, rfl⟩ | ⟨x, hi, rfl⟩ := hform <;> exact exec_of_form hi hrun
  case pop =>
    have hrun := run_pop r (Bool.and_eq_true_iff.mpr ⟨hlow, hhigh⟩) hroom
    obtain ⟨p, hi, rfl⟩ | ⟨x, hi, rfl⟩ := hform <;> exact exec_of_form hi hrun

end Sys2Proof.Machine
end

section
/-! PROOFS of the family 42_exchange_block.md. Each clause is the equation of the operation its form runs (Laws/Transfer.lean),
carried over to the instruction by `exec_of_form`; a block form's equations differ in whether the step goes round again. -/

namespace Sys2Proof.Machine

/-! ## Exchanges -/

/-- Settles O28: the first three are register updates alone, and the stack exchanges are one operation on their pair. -/
theorem exchangeForms : Obligations.ExchangeForms := by
  intro i s
  refine ⟨fun hi => exec_of_form hi rfl, fun hi => exec_of_form hi rfl, fun hi => exec_of_form hi rfl,
    fun r hform hlow hhigh hroom => ?_⟩
  have hrun := run_exSp r hlow hhigh hroom
  obtain ⟨hi, rfl⟩ | ⟨x, hi, rfl⟩ := hform <;> exact exec_of_form hi hrun

/-! ## Block transfer and search -/

theorem State.ldAgain_iff {s : State} {rep : Bool} : s.ldAgain rep = true ↔ rep = true ∧ s.regs.bc - 1 ≠ 0 := by
  simp [State.ldAgain]

theorem State.cpAgain_iff {s : State} {rep : Bool} :
    s.cpAgain rep = true ↔ rep = true ∧ s.regs.bc - 1 ≠ 0 ∧ s.regs.a - s.byteAt s.regs.hl ≠ 0 := by
  simp [State.cpAgain, and_assoc]

/-- A block transfer writes neither PC nor WZ, so going back to the ED byte may as well come after it (rule R367). -/
theorem Regs.ldMoved_repeat (g : Regs) (dir : Dir) (v : Byte) :
    { repeatPc g with wz := g.pc - 1 }.ldMoved dir v = { g.ldMoved dir v with pc := g.pc - 2, wz := g.pc - 1 } := rfl

/-- The same of a block search (rule R371). -/
theorem Regs.cpMoved_repeat (g : Regs) (dir : Dir) (v : Byte) :
    { repeatPc g with wz := g.pc - 1 }.cpMoved dir v = { g.cpMoved dir v with pc := g.pc - 2, wz := g.pc - 1 } := rfl

theorem Regs.cpMoved_with_wz (g : Regs) (dir : Dir) (v : Byte) (w : Word) :
    { g with wz := w }.cpMoved dir v = { g.cpMoved dir v with wz := w } := rfl

/-- Settles O29: `F` is the pack of `ldBlockFlags`, and the two clauses are the two ways the operation ends. -/
theorem blockTransfer : Obligations.BlockTransfer := by
  intro i s dir rep hi hread hwrite hidle hroom v inc k again
  have hinc : inc = blockInc dir := by cases dir <;> rfl
  rw [hinc]
  refine ⟨(ldBlockFlags v s.regs.a (s.regs.bc - 1) s.regs.flags).pack, unpackF_pack _, fun hagain => ?again,
    fun hlast => ?last⟩
  case again =>
    have hrun := run_ldBlock_again dir rep (State.ldAgain_iff.mpr hagain) hread hwrite hidle hroom
    simp only [Regs.ldMoved_repeat] at hrun
    exact exec_of_form hi hrun
  case last =>
    have hstop : s.ldAgain rep = false := Bool.eq_false_iff.mpr (mt State.ldAgain_iff.mp hlast)
    exact exec_of_form hi (run_ldBlock_last dir rep hstop hread hwrite hidle (State.room_le hroom (by decide)))

/-- Settles O30: `F` is the pack of `cpBlockFlags`, and the two clauses are the two ways the operation ends. -/
theorem blockSearch : Obligations.BlockSearch := by
  intro i s dir rep hi hread hroom v inc r h k again
  have hinc : inc = blockInc dir := by cases dir <;> rfl
  rw [hinc]
  refine ⟨(cpBlockFlags s.regs.a v (s.regs.bc - 1) s.regs.flags).pack, unpackF_pack _, fun hagain => ?again,
    fun hlast => ?last⟩
  case again =>
    have hrun := run_cpBlock_again dir rep (State.cpAgain_iff.mpr hagain) hread hroom
    simp only [Regs.cpMoved_repeat] at hrun
    exact exec_of_form hi hrun
  case last =>
    have hstop : s.cpAgain rep = false := Bool.eq_false_iff.mpr (mt State.cpAgain_iff.mp hlast)
    have hrun := run_cpBlock_last dir rep hstop hread (State.room_le hroom (by decide))
    simp only [Regs.cpMoved_with_wz] at hrun
    exact exec_of_form hi hrun

end Sys2Proof.Machine
end

section
/-! PROOFS of the family 43_arith8.md. The operand forms are the equations of the operations they run (Laws/Operations.lean),
carried over to the instruction by `exec_of_form`; the flag rules turn on the carry as a byte and the nine-bit sum. -/

namespace Sys2Proof.Machine

/-! ## Register updates that read the registers -/

/-- Only what an update makes of the registers as they stand matters. -/
theorem State.withRegs_congr {s : State} {f f' : Regs → Regs} (h : f s.regs = f' s.regs) :
    s.withRegs f = s.withRegs f' := by
  rw [State.withRegs, State.withRegs, h]

/-- Flags computed from the registers are a byte known before the update. -/
theorem State.withRegs_setFlags (s : State) (f : Regs → Regs) (k : Regs → Flags) :
    s.withRegs (fun g => (f g).setFlags (k g)) = s.withRegs fun g => { f g with f := (k s.regs).pack } :=
  State.withRegs_congr rfl

/-! ## The accumulator operations -/

/-- `run_alu_mem`, with the operand's address read from the registers that are updated. -/
theorem run_alu_operand {s : State} {m : Mem8} (op : AluOp) (hea : s.calmEA m = true)
    (hread : s.calmRead (s.regs.memEA m) = true) (hroom : s.room (eaTime 5 m + 3)) :
    alu op m.src s = .ok () ((s.withRegs fun g =>
      (g.noteEA m).setAF (aluResult op g.a (s.byteAt (g.memEA m)) g.flags.c)).after (eaTime 5 m + 3)) := by
  have hregs : (s.withRegs fun g => (g.noteEA m).setAF (aluResult op g.a (s.byteAt (s.regs.memEA m)) g.flags.c)) =
      s.withRegs fun g => (g.noteEA m).setAF (aluResult op g.a (s.byteAt (g.memEA m)) g.flags.c) :=
    State.withRegs_congr rfl
  rw [run_alu_mem op hea hread hroom, hregs]

/-- Settles O31: a register and an immediate operand are read without a cycle, a memory operand after its address is formed. -/
theorem accumulatorForms : Obligations.AccumulatorForms := fun _ s op =>
  ⟨fun z hi => exec_of_form hi (run_alu_reg op z.reg s),
   fun n hi => exec_of_form hi (run_alu_imm op n s),
   fun x z hi => exec_of_form hi (run_alu_reg op (z.sub x) s),
   fun hi hread hroom => exec_of_form hi (run_alu_operand (m := .atHL) op rfl hread hroom),
   fun x d hi hidle hread hroom => exec_of_form hi (run_alu_operand (m := .atIdx x d) op hidle hread hroom)⟩

/-! ## The flag helpers (rule R409) -/

theorem bit8_eq_ofNat (c : Bool) : bit8 c = BitVec.ofNat 8 c.toNat := by cases c <;> rfl

theorem bit8_toNat (c : Bool) : (bit8 c).toNat = c.toNat := by cases c <;> rfl

theorem add_bit8_eq_ofNat (a s : Byte) (c : Bool) : a + s + bit8 c = BitVec.ofNat 8 (a.toNat + s.toNat + c.toNat) := by
  simp only [BitVec.ofNat_add, BitVec.ofNat_toNat, BitVec.setWidth_eq, bit8_eq_ofNat]

theorem sub_bit8_eq_ofInt (a s : Byte) (c : Bool) :
    a - s - bit8 c = BitVec.ofInt 8 ((a.toNat : Int) - s.toNat - c.toNat) := by
  apply BitVec.eq_of_toNat_eq
  have ha := a.isLt
  have hs := s.isLt
  have hc := Bool.toNat_le c
  simp only [BitVec.toNat_sub, BitVec.toNat_ofInt, bit8_toNat]
  omega

/-- The carry out of a byte addition is bit 8 of the sum. -/
theorem decide_carry_eq_testBit (a s : Byte) (c : Bool) :
    decide (256 ≤ a.toNat + s.toNat + c.toNat) = (a.toNat + s.toNat + c.toNat).testBit 8 := by
  have ha := a.isLt
  have hs := s.isLt
  have hc := Bool.toNat_le c
  rw [Nat.testBit_eq_decide_div_mod_eq, decide_eq_decide]
  omega

/-- The borrow of a byte subtraction is the sign of the difference. -/
theorem decide_borrow_eq_neg (a s : Byte) (c : Bool) :
    decide (a.toNat < s.toNat + c.toNat) = decide ((a.toNat : Int) - s.toNat - c.toNat < 0) := by
  rw [decide_eq_decide]
  omega

theorem add8_fst (a s : Byte) (c : Bool) : (add8 a s c).1 = BitVec.ofNat 8 (a.toNat + s.toNat + c.toNat) :=
  add_bit8_eq_ofNat a s c

/-- `AddFlags(a, s, c)`, bit by bit. -/
theorem add8_flags (a s : Byte) (c : Bool) :
    let t := a.toNat + s.toNat + c.toNat
    let res := BitVec.ofNat 8 t
    (add8 a s c).2 =
      { s := res.getLsbD 7, z := decide (res = 0), y := res.getLsbD 5, h := (a ^^^ s ^^^ res).getLsbD 4,
        x := res.getLsbD 3, pv := decide (a.getLsbD 7 = s.getLsbD 7 ∧ res.getLsbD 7 ≠ a.getLsbD 7), n := false,
        c := t.testBit 8 } := by
  intro t res
  have hpv : decide (a.getLsbD 7 = s.getLsbD 7 ∧ res.getLsbD 7 ≠ a.getLsbD 7) =
      (a.getLsbD 7 == s.getLsbD 7 && res.getLsbD 7 != a.getLsbD 7) := by
    rw [Bool.decide_and, decide_not]; rfl
  simp only [add8, add_bit8_eq_ofNat, decide_carry_eq_testBit, hpv]
  rfl

theorem sub8_fst (a s : Byte) (c : Bool) :
    (sub8 a s c).1 = BitVec.ofInt 8 ((a.toNat : Int) - s.toNat - c.toNat) := sub_bit8_eq_ofInt a s c

/-- `SubFlags(a, s, c)`, bit by bit. -/
theorem sub8_flags (a s : Byte) (c : Bool) :
    let t : Int := (a.toNat : Int) - s.toNat - c.toNat
    let res := BitVec.ofInt 8 t
    (sub8 a s c).2 =
      { s := res.getLsbD 7, z := decide (res = 0), y := res.getLsbD 5, h := (a ^^^ s ^^^ res).getLsbD 4,
        x := res.getLsbD 3, pv := decide (a.getLsbD 7 ≠ s.getLsbD 7 ∧ res.getLsbD 7 ≠ a.getLsbD 7), n := true,
        c := decide (t < 0) } := by
  intro t res
  have hpv : decide (a.getLsbD 7 ≠ s.getLsbD 7 ∧ res.getLsbD 7 ≠ a.getLsbD 7) =
      (a.getLsbD 7 != s.getLsbD 7 && res.getLsbD 7 != a.getLsbD 7) := by
    rw [Bool.decide_and, decide_not, decide_not]; rfl
  simp only [sub8, sub_bit8_eq_ofInt, decide_borrow_eq_neg, hpv]
  rfl

/-- Settles O32: ADD and ADC are `add8`, SUB, SBC and CP are `sub8` (CP keeps A and takes Y and X from its operand), and the
logical operations write `logicFlags` of their result. -/
theorem byteFlagRules : Obligations.ByteFlagRules := by
  intro a s c
  refine ⟨fun op cin hop => ?addition, fun op cin hop => ?subtraction,
    ⟨rfl, unpackF_pack _⟩, ⟨rfl, unpackF_pack _⟩, ⟨rfl, unpackF_pack _⟩⟩
  case addition =>
    have hres : aluResult op a s c = add8 a s cin := by
      obtain ⟨rfl, rfl⟩ | ⟨rfl, rfl⟩ := hop <;> rfl
    rw [hres, unpackF_pack]
    exact ⟨add8_fst a s cin, add8_flags a s cin⟩
  case subtraction =>
    rw [unpackF_pack]
    obtain ⟨rfl, rfl⟩ | ⟨rfl, rfl⟩ | ⟨rfl, rfl⟩ := hop
    · exact ⟨sub8_fst a s false, sub8_flags a s false⟩
    · exact ⟨sub8_fst a s cin, sub8_flags a s cin⟩
    · exact ⟨rfl, congrArg (·.yx s) (sub8_flags a s false)⟩

/-! ## INC and DEC of a byte -/

/-- Settles O33: the register forms are one operation on their register, the memory forms one on their operand, and `F` is the
pack of the flags of `inc8` or `dec8` (rules R410 and R414). -/
theorem incrementForms : Obligations.IncrementForms := by
  intro i s incF decF
  refine ⟨fun r hform => ⟨(inc8 (s.regs.get8 r) s.regs.flags).2.pack, unpackF_pack _, ?incReg⟩,
    fun r hform => ⟨(dec8 (s.regs.get8 r) s.regs.flags).2.pack, unpackF_pack _, ?decReg⟩,
    fun m hform hcalm hroom => ?incMem, fun m hform hcalm hroom => ?decMem⟩
  case incReg =>
    have hrun := run_incReg r s
    rw [State.withRegs_setFlags] at hrun
    obtain ⟨y, hi, rfl⟩ | ⟨x, y, hi, rfl⟩ := hform <;> exact exec_of_form hi hrun
  case decReg =>
    have hrun := run_decReg r s
    rw [State.withRegs_setFlags] at hrun
    obtain ⟨y, hi, rfl⟩ | ⟨x, y, hi, rfl⟩ := hform <;> exact exec_of_form hi hrun
  case incMem =>
    obtain ⟨hea, hdata⟩ := Bool.and_eq_true_iff.mp hcalm
    have hrun := run_incMem hea hdata hroom
    rw [State.withRegs_setFlags] at hrun
    refine ⟨(inc8 (s.byteAt (s.regs.memEA m)) s.regs.flags).2.pack, unpackF_pack _, ?_⟩
    obtain ⟨hi, rfl⟩ | ⟨x, d, hi, rfl⟩ := hform <;> exact exec_of_form hi hrun
  case decMem =>
    obtain ⟨hea, hdata⟩ := Bool.and_eq_true_iff.mp hcalm
    have hrun := run_decMem hea hdata hroom
    rw [State.withRegs_setFlags] at hrun
    refine ⟨(dec8 (s.byteAt (s.regs.memEA m)) s.regs.flags).2.pack, unpackF_pack _, ?_⟩
    obtain ⟨hi, rfl⟩ | ⟨x, d, hi, rfl⟩ := hform <;> exact exec_of_form hi hrun

end Sys2Proof.Machine
end

section
/-! PROOFS of the family 44_control.md. The halted step is one calm opcode fetch and the bookkeeping of an executed
instruction; every form writes registers alone, so each is its register update, and what is left is the arithmetic of DAA and
NEG. -/

namespace Sys2Proof.Machine

/-! ## The halted step (rule R450) -/

theorem run_haltedStep {s : State} (h : s.calmFetch s.regs.pc = true) (hr : s.room 4) (hic : s.ic < 4294967295) :
    haltedStep s = .ok () (((s.withRegs fun g => { g with r := bumpR g.r }).after 4).completed false) := by
  unfold haltedStep
  rw [run_bind_ok (run_theRegs s), run_bind_ok (run_m1 h hr), run_completeInstr false (by simpa using hic)]

/-- Where the boundary step's last part ends without an exit reason, it is all the step does. -/
theorem step_of_boundaryAct {s : State} {b : Bool} {m : M Unit} (hat : s.atBoundary b)
    (h : boundaryAct execute s = (m >>= fun _ => pure none) s) : step s = perform m s := by
  have ⟨hf, hr, hp, hl, _⟩ := hat
  have hrun : runStep execute s = (m >>= fun _ => pure none) s := by
    rw [runStep_of_no_latch hl, boundaryStep_atBoundary hat, h]
  rw [step_unmarked hf hr]
  simp only [perform, agentStep_of_goesOn hp hrun]

/-- At a boundary that lets a halted CPU execute, a step is the halted step. -/
theorem step_atExecute_halted {s : State} {b : Bool} (h : s.atExecute b) (hh : s.regs.halted = true) :
    step s = perform haltedStep s := by
  have ⟨hat, hn, hi, _⟩ := h
  refine step_of_boundaryAct hat ?_
  rw [boundaryAct_no_interrupt hn hi (run_execBreakHit_atExecute h), if_neg Bool.false_ne_true, if_pos hh]

/-- Settles O13: the fetched byte is dropped, so the fetch leaves only its time and `R`. (The name `haltedStep` is the
model's action.) -/
theorem haltedStep_atExecute : Obligations.HaltedStep := fun _ _ hat hh hcalm hroom hic =>
  (step_atExecute_halted hat hh).trans (perform_ok (run_haltedStep hcalm hroom hic))

/-! ## DAA (rule R440) -/

/-- The low digit of a byte. -/
theorem and_0F_toNat (a : Byte) : (a &&& 0x0F).toNat = a.toNat % 16 := by
  rw [BitVec.toNat_and]
  exact Nat.and_two_pow_sub_one_eq_mod a.toNat 4

/-- The two digits' adjustments have no bit in common, so `|` adds them. -/
theorem daa_adjustment (low high : Bool) :
    ((if low then 0x06 else 0) ||| (if high then 0x60 else 0) : Byte) =
      BitVec.ofNat 8 ((if low then 0x06 else 0) + (if high then 0x60 else 0)) := by
  cases low <;> cases high <;> rfl

theorem byte_add_ofNat (a : Byte) (t : Nat) : a + BitVec.ofNat 8 t = BitVec.ofNat 8 (a.toNat + t) := by
  rw [BitVec.ofNat_add, BitVec.ofNat_toNat, BitVec.setWidth_eq]

theorem byte_sub_ofNat (a : Byte) (t : Nat) : a - BitVec.ofNat 8 t = BitVec.ofInt 8 (a.toNat - t) := by
  apply BitVec.eq_of_toNat_eq
  have ha := a.isLt
  simp only [BitVec.toNat_sub, BitVec.toNat_ofNat, BitVec.toNat_ofInt]
  omega

theorem run_daa (s : State) :
    daa s = .ok () (s.withRegs fun g =>
      { g with a := (daaResult s.regs.a s.regs.flags).1, f := (daaResult s.regs.a s.regs.flags).2.pack }) := rfl

/-- `DAA` in numbers: `t` is added to or taken from A. -/
theorem daaResult_eq (a : Byte) (k : Flags) :
    let low := decide (9 < a.toNat % 16)
    let high := k.c || decide (0x99 < a.toNat)
    let t : Nat := (if k.h || low then 0x06 else 0) + (if high then 0x60 else 0)
    let res : Byte := if k.n then BitVec.ofInt 8 (a.toNat - t) else BitVec.ofNat 8 (a.toNat + t)
    daaResult a k =
      (res, { s := res.getLsbD 7, z := decide (res = 0), y := res.getLsbD 5,
              h := if k.n then k.h && decide (a.toNat % 16 < 6) else low, x := res.getLsbD 3, pv := parity res,
              n := k.n, c := high }) := by
  simp only [daaResult, and_0F_toNat, daa_adjustment, byte_add_ofNat, byte_sub_ofNat]
  rfl

/-! ## NEG (rule R442) -/

theorem zero_sub_sub_bit8 (a : Byte) : 0 - a - bit8 false = -a := by
  rw [bit8_eq_ofNat, Bool.toNat_false, BitVec.sub_zero, zero_sub]

/-- Negating borrows from the high digit where the low one is not 0. -/
theorem neg_halfBorrow (a : Byte) : (0 ^^^ a ^^^ -a).getLsbD 4 = decide (a.toNat % 16 ≠ 0) := by
  revert a
  decide

/-- Negating overflows on the least signed byte alone. -/
theorem neg_overflow (a : Byte) :
    ((0 : Byte).getLsbD 7 != a.getLsbD 7 && (-a).getLsbD 7 != (0 : Byte).getLsbD 7) = decide (a = 0x80) := by
  revert a
  decide

theorem neg_borrow (a : Byte) : decide ((0 : Byte).toNat < a.toNat + false.toNat) = decide (a ≠ 0) := by
  rw [decide_eq_decide, ← BitVec.toNat_ne_iff_ne]
  exact Nat.pos_iff_ne_zero

theorem run_neg (s : State) :
    neg s = .ok () (s.withRegs fun g => { g with a := -s.regs.a, f := (sub8 0 s.regs.a false).2.pack }) := by
  rw [← zero_sub_sub_bit8]
  rfl

/-- `SubFlags(0, v, 0)`, bit by bit. -/
theorem sub8_zero_flags (a : Byte) :
    (sub8 0 a false).2 =
      { s := (-a).getLsbD 7, z := decide (a = 0), y := (-a).getLsbD 5, h := decide (a.toNat % 16 ≠ 0),
        x := (-a).getLsbD 3, pv := decide (a = 0x80), n := true, c := decide (a ≠ 0) } := by
  have hz : decide (-a = 0) = decide (a = 0) := by rw [decide_eq_decide, neg_eq_zero]
  simp only [sub8, zero_sub_sub_bit8, bitAt, neg_halfBorrow, neg_overflow, neg_borrow, ← hz]
  rfl

/-! ## CPL, CCF and SCF (rules R441, R443 and R444) -/

theorem run_cpl (s : State) :
    cpl s = .ok () (s.withRegs fun g =>
      { g with a := ~~~s.regs.a, f := (cplResult s.regs.a s.regs.flags).2.pack }) := rfl

theorem run_ccf (s : State) :
    ccf s = .ok () (s.withRegs fun g => { g with f := (ccfFlags s.regs.a s.regs.flags).pack }) := rfl

theorem run_scf (s : State) :
    scf s = .ok () (s.withRegs fun g => { g with f := (scfFlags s.regs.a s.regs.flags).pack }) := rfl

theorem cplResult_flags (a : Byte) (k : Flags) :
    (cplResult a k).2 = { k with y := !a.getLsbD 5, h := true, x := !a.getLsbD 3, n := true } := by
  simp [cplResult, Flags.yx, bitAt]

/-- Settles O34: `F` is the pack of the operation's flags, and unpacking gives them back. -/
theorem accumulatorAdjust : Obligations.AccumulatorAdjust := by
  intro i s a k
  refine ⟨fun hi => ?daa, fun hi => ?cpl, fun y hi => ?neg, fun hi => ?ccf, fun hi => ?scf⟩
  case daa =>
    intro low high t res
    have hres := daaResult_eq a k
    exact ⟨(daaResult a k).2.pack, exec_of_form hi (hres ▸ run_daa s), by rw [unpackF_pack, hres]⟩
  case cpl =>
    exact ⟨(cplResult a k).2.pack, exec_of_form hi (run_cpl s), by rw [unpackF_pack, cplResult_flags]⟩
  case neg =>
    exact ⟨(sub8 0 a false).2.pack, exec_of_form hi (run_neg s), by rw [unpackF_pack, sub8_zero_flags]⟩
  case ccf => exact ⟨(ccfFlags a k).pack, exec_of_form hi (run_ccf s), unpackF_pack _⟩
  case scf => exact ⟨(scfFlags a k).pack, exec_of_form hi (run_scf s), unpackF_pack _⟩

/-! ## Control (rules R445 to R449 and R452) -/

/-- The table `im[y]` in two bits of `y`, `IM01_MODE` being mode 0 (rule R452). -/
theorem imMode_eq (y : Fin 8) : imMode y = if y.val % 4 = 2 then .im1 else if y.val % 4 = 3 then .im2 else .im0 := by
  revert y
  decide

theorem run_setIm (m : IntMode) (s : State) : setIm m s = .ok () (s.withRegs fun g => { g with im := m }) := rfl
theorem run_halt (s : State) : halt s = .ok () (s.withRegs fun g => { g with halted := true, pc := g.pc - 1 }) := rfl
theorem run_di (s : State) : di s = .ok () (s.withRegs fun g => { g with iff1 := false, iff2 := false }) := rfl
theorem run_ei (s : State) : ei s = .ok () (s.withRegs fun g => { g with iff1 := true, iff2 := true }) := rfl

/-- Settles O35: none of the forms makes a cycle, so each is its register update on every state. -/
theorem controlForms : Obligations.ControlForms := fun _ s =>
  ⟨fun hi => exec_of_form hi (run_pure () s),
   fun _ hi => exec_of_form hi (run_pure () s),
   fun hi => exec_of_form hi (run_halt s),
   fun hi => exec_of_form hi (run_di s),
   fun hi => exec_of_form hi (run_ei s),
   fun y hi => exec_of_form hi (imMode_eq y ▸ run_setIm (imMode y) s)⟩

end Sys2Proof.Machine
end

section
/-! PROOFS of the family 45_arith16.md. Each clause is the equation of the operation its form runs (Laws/Operations.lean),
carried over to the instruction by `exec_of_form`; the flags of rule R469 turn on the sum and the difference as numbers. -/

namespace Sys2Proof.Machine

/-! ## Words as numbers -/

theorem bit16_eq_ofNat (c : Bool) : bit16 c = BitVec.ofNat 16 c.toNat := by cases c <;> rfl

theorem add_bit16_eq_ofNat (a b : Word) (c : Bool) : a + b + bit16 c = BitVec.ofNat 16 (a.toNat + b.toNat + c.toNat) := by
  simp only [BitVec.ofNat_add, BitVec.ofNat_toNat, BitVec.setWidth_eq, bit16_eq_ofNat]

theorem sub_bit16_eq_ofInt (a b : Word) (c : Bool) :
    a - b - bit16 c = BitVec.ofInt 16 ((a.toNat : Int) - b.toNat - c.toNat) := by
  apply BitVec.eq_of_toNat_eq
  have ha := a.isLt
  have hb := b.isLt
  have hc := Bool.toNat_le c
  simp only [bit16_eq_ofNat, BitVec.toNat_sub, BitVec.toNat_ofNat, BitVec.toNat_ofInt]
  omega

/-- The carry out of a word addition is bit 16 of the sum. -/
theorem decide_wordCarry_eq_testBit {t : Nat} (ht : t < 131072) : decide (65536 ≤ t) = t.testBit 16 := by
  rw [Nat.testBit_eq_decide_div_mod_eq, decide_eq_decide]
  omega

/-- The borrow of a word subtraction is the sign of the difference. -/
theorem decide_wordBorrow_eq_neg (a b : Word) (c : Bool) :
    decide (a.toNat < b.toNat + c.toNat) = decide ((a.toNat : Int) - b.toNat - c.toNat < 0) := by
  rw [decide_eq_decide]
  omega

/-- `Y` and `X` from the high byte of a word are its bits 13 and 11. -/
theorem Flags.yx_hi (k : Flags) (w : Word) : k.yx (hi w) = { k with y := w.getLsbD 13, x := w.getLsbD 11 } := by
  simp [Flags.yx, bitAt, hi]

/-! ## The results and their flags (rule R469) -/

/-- `ADD` of words and `Add16Flags(a, b)`, bit by bit. -/
theorem add16Result_eq (a b : Word) (k : Flags) :
    let res := BitVec.ofNat 16 (a.toNat + b.toNat)
    add16Result a b k =
      (res, { k with y := res.getLsbD 13, h := (a ^^^ b ^^^ res).getLsbD 12, x := res.getLsbD 11, n := false,
                     c := (a.toNat + b.toNat).testBit 16 }) := by
  have hcarry := decide_wordCarry_eq_testBit (t := a.toNat + b.toNat) (Nat.add_lt_add a.isLt b.isLt)
  simp only [add16Result, Flags.yx_hi, BitVec.add_def, hcarry]
  rfl

/-- `ADC` of words and `Adc16Flags(a, b, c)`, bit by bit. -/
theorem adc16Result_eq (a b : Word) (c : Bool) :
    let t := a.toNat + b.toNat + c.toNat
    let res := BitVec.ofNat 16 t
    adc16Result a b c =
      (res, { s := res.getLsbD 15, z := decide (res = 0), y := res.getLsbD 13, h := (a ^^^ b ^^^ res).getLsbD 12,
              x := res.getLsbD 11, pv := decide (a.getLsbD 15 = b.getLsbD 15 ∧ res.getLsbD 15 ≠ a.getLsbD 15),
              n := false, c := t.testBit 16 }) := by
  have hcarry : decide (65536 ≤ a.toNat + b.toNat + c.toNat) = (a.toNat + b.toNat + c.toNat).testBit 16 :=
    decide_wordCarry_eq_testBit (by have := Bool.toNat_le c; omega)
  simp only [adc16Result, add_bit16_eq_ofNat, hcarry, Bool.decide_and, decide_not]
  rfl

/-- `SBC` of words and `Sbc16Flags(a, b, c)`, bit by bit. -/
theorem sbc16Result_eq (a b : Word) (c : Bool) :
    let t : Int := (a.toNat : Int) - b.toNat - c.toNat
    let res := BitVec.ofInt 16 t
    sbc16Result a b c =
      (res, { s := res.getLsbD 15, z := decide (res = 0), y := res.getLsbD 13, h := (a ^^^ b ^^^ res).getLsbD 12,
              x := res.getLsbD 11, pv := decide (a.getLsbD 15 ≠ b.getLsbD 15 ∧ res.getLsbD 15 ≠ a.getLsbD 15),
              n := true, c := decide (t < 0) }) := by
  simp only [sbc16Result, sub_bit16_eq_ofInt, decide_wordBorrow_eq_neg, Bool.decide_and, decide_not]
  rfl

/-! ## The forms (rules R470 to R477) -/

/-- The registers after word arithmetic whose result is `w` with the flags `k`. -/
theorem State.withRegs_wordResult {s : State} {dst : Reg16} {r : Regs → Word × Flags} {w : Word} {k : Flags}
    (hres : r s.regs = (w, k)) :
    s.withRegs (fun g => { (g.set16 dst (r g).1).setFlags (r g).2 with wz := g.get16 dst + 1 }) =
      s.withRegs fun g => { g.set16 dst w with f := k.pack, wz := s.regs.get16 dst + 1 } :=
  State.withRegs_congr (by simp only [hres, Regs.setFlags_eq])

/-- Word arithmetic leaves its result in the destination and the pack of its flags in `F`. -/
theorem exec_of_wordResult {i : Instr} {form : Form} {s : State} {dst : Reg16} {r : Regs → Word × Flags} {w : Word}
    {k : Flags} (hi : i.form = form)
    (hrun : runForm form s = .ok () ((s.withRegs fun g =>
      { (g.set16 dst (r g).1).setFlags (r g).2 with wz := g.get16 dst + 1 }).after 7))
    (hres : r s.regs = (w, k)) :
    ∃ f, exec i s = .next ((s.withRegs fun g =>
      { g.set16 dst w with f := f, wz := s.regs.get16 dst + 1 }).after 7) ∧ unpackF f = k := by
  rw [State.withRegs_wordResult hres] at hrun
  exact ⟨k.pack, exec_of_form hi hrun, unpackF_pack k⟩

/-- Settles O36: ADD, ADC and SBC write the result of rule R469, and the forms of INC and of DEC are one operation on their
register. -/
theorem wordArithmeticForms : Obligations.WordArithmeticForms := by
  intro i s hidle hroom k
  have hroom2 : s.room 2 := State.room_le hroom (by decide)
  refine ⟨fun dst src hform => ?add,
    fun p hi => exec_of_wordResult hi (run_adc16 p.reg hidle hroom) (adc16Result_eq _ _ k.c),
    fun p hi => exec_of_wordResult hi (run_sbc16 p.reg hidle hroom) (sbc16Result_eq _ _ k.c),
    fun r hform => ?inc, fun r hform => ?dec⟩
  case add =>
    have hrun := run_add16 dst src hidle hroom
    have hres := add16Result_eq (s.regs.get16 dst) (s.regs.get16 src) k
    obtain ⟨p, hi, rfl, rfl⟩ | ⟨x, p, hi, rfl, rfl⟩ := hform <;> exact exec_of_wordResult hi hrun hres
  case inc =>
    have hrun := run_inc16 r hidle hroom2
    obtain ⟨p, hi, rfl⟩ | ⟨x, hi, rfl⟩ := hform <;> exact exec_of_form hi hrun
  case dec =>
    have hrun := run_dec16 r hidle hroom2
    obtain ⟨p, hi, rfl⟩ | ⟨x, hi, rfl⟩ := hform <;> exact exec_of_form hi hrun

end Sys2Proof.Machine
end

section
/-! PROOFS of the family 46_rotate_shift.md. A rotate or shift moves every bit one place and puts one bit in, which is all that
sets the eight functions apart; the forms are the equations of their operations (Laws/Arithmetic.lean), carried over to the
instruction by `exec_of_form`. -/

namespace Sys2Proof.Machine

/-! ## The functions `f(v, cin)` (rules R495 to R502) -/

theorem bit8_getLsbD (b : Bool) {j : Nat} (hj : j < 8) : (bit8 b).getLsbD j = (decide (j = 0) && b) := by
  simp only [bit8, BitVec.getLsbD_setWidth, BitVec.getLsbD_ofBool, hj, decide_true, Bool.true_and]

/-- A left rotate or shift puts its bit in at bit 0. -/
theorem shiftLeft_or_bit8_getLsbD (v : Byte) (b : Bool) {j : Nat} (hj : j < 8) :
    (v <<< 1 ||| bit8 b).getLsbD j = if j = 0 then b else v.getLsbD (j - 1) := by
  rw [BitVec.getLsbD_or, BitVec.getLsbD_shiftLeft, bit8_getLsbD b hj]
  by_cases h0 : j = 0 <;> simp [h0, hj]

/-- A right rotate or shift puts its bit in at bit 7. -/
theorem shiftRight_or_bit8_getLsbD (v : Byte) (b : Bool) {j : Nat} (hj : j < 8) :
    (v >>> 1 ||| bit8 b <<< 7).getLsbD j = if j = 7 then b else v.getLsbD (j + 1) := by
  rw [BitVec.getLsbD_or, BitVec.getLsbD_ushiftRight, BitVec.getLsbD_shiftLeft,
    bit8_getLsbD b (Nat.lt_of_le_of_lt (Nat.sub_le j 7) hj), Nat.add_comm 1 j]
  by_cases h7 : j = 7
  · simp [h7]
  · have hlt : j < 7 := by omega
    simp [h7, hlt]

/-- Settles O37: SLA, SLL and SRL put in a fixed bit, the others one of `v` or the carry. -/
theorem rotateFunctions : Obligations.RotateFunctions := by
  intro v cin j hj left right
  have hleft : ∀ b, left b (v <<< 1 ||| bit8 b, v.getLsbD 7) := fun b => ⟨shiftLeft_or_bit8_getLsbD v b hj, rfl⟩
  have hright : ∀ b, right b (v >>> 1 ||| bit8 b <<< 7, v.getLsbD 0) := fun b => ⟨shiftRight_or_bit8_getLsbD v b hj, rfl⟩
  have hsla : rotShift .sla v cin = (v <<< 1 ||| bit8 false, v.getLsbD 7) := congrArg (·, _) BitVec.or_zero.symm
  have hsrl : rotShift .srl v cin = (v >>> 1 ||| bit8 false <<< 7, v.getLsbD 0) := congrArg (·, _) BitVec.or_zero.symm
  rw [hsla, hsrl]
  exact ⟨hleft _, hright _, hleft cin, hright cin, hleft false, hright _, hleft true, hright false⟩

/-! ## The forms of the rotates and shifts (rules R490 to R494) -/

theorem run_accRotate (op : RotOp) (s : State) :
    accRotate op s = .ok () (s.withRegs fun g =>
      { g with a := (rotShift op s.regs.a s.regs.flags.c).1, f := (accRotResult op s.regs.a s.regs.flags).2.pack }) := rfl

/-- `run_rotReg`, with the result and the flags computed from the registers before the update. -/
theorem run_rotReg_result (op : RotOp) (r : Reg8) (s : State) :
    rotReg op r s = .ok () (s.withRegs fun g =>
      { g.set8 r (rotShift op (s.regs.get8 r) s.regs.flags.c).1 with
        f := (rotResult op (s.regs.get8 r) s.regs.flags).2.pack }) := rfl

/-- `run_rotMem`, with the result and the flags computed from the registers before the update. -/
theorem run_rotMem_result {s : State} {m : Mem8} (op : RotOp) (copy : Option R7) (hcalm : s.calmModify m = true)
    (hroom : s.room (eaTime 2 m + 7)) :
    let r := rotShift op (s.byteAt (s.regs.memEA m)) s.regs.flags.c
    rotMem op m copy s = .ok () (((s.store (s.regs.memEA m) r.1).withRegs fun g =>
      { (g.noteEA m).copied copy r.1 with
        f := (rotResult op (s.byteAt (s.regs.memEA m)) s.regs.flags).2.pack }).after (eaTime 2 m + 7)) := by
  obtain ⟨hea, hdata⟩ := Bool.and_eq_true_iff.mp hcalm
  exact run_rotMem op copy hea hdata hroom

/-- Settles O38: `F` is the pack of `accRotResult`'s or `rotResult`'s flags, and the memory forms are one operation on their
operand and copy. -/
theorem rotateForms : Obligations.RotateForms := by
  intro i s k
  refine ⟨fun op hform => ⟨(accRotResult op s.regs.a k).2.pack, ?acc, unpackF_pack _⟩,
    fun op z hi => ⟨(rotResult op (s.regs.get8 z.reg) k).2.pack, unpackF_pack _,
      exec_of_form hi (run_rotReg_result op z.reg s)⟩,
    fun op m copy hform hcalm hroom => ⟨(rotResult op (s.byteAt (s.regs.memEA m)) k).2.pack, unpackF_pack _, ?mem⟩⟩
  case acc =>
    have hrun := run_accRotate op s
    obtain ⟨hi, rfl⟩ | ⟨hi, rfl⟩ | ⟨hi, rfl⟩ | ⟨hi, rfl⟩ := hform <;> exact exec_of_form hi hrun
  case mem =>
    have hrun := run_rotMem_result op copy hcalm hroom
    obtain ⟨hi, rfl, rfl⟩ | ⟨x, d, hi, rfl⟩ := hform <;> exact exec_of_form hi hrun

/-! ## RLD and RRD (rules R503 and R504) -/

theorem shiftLeft4_toNat (v : Byte) : (v <<< 4).toNat = v.toNat % 16 * 16 := by
  rw [BitVec.toNat_shiftLeft, Nat.shiftLeft_eq]
  omega

theorem shiftRight4_toNat (v : Byte) : (v >>> 4).toNat = v.toNat / 16 := by
  rw [BitVec.toNat_ushiftRight, Nat.shiftRight_eq_div_pow]

theorem and_F0_toNat (v : Byte) : (v &&& 0xF0).toNat = v.toNat / 16 * 16 := by
  revert v
  decide

/-- A high digit and a low digit have no bit in common, so `|` adds them. -/
theorem or_digits_eq {x y w : Byte} {high low : Nat} (hx : x.toNat = high * 16) (hy : y.toNat = low) (hlow : low < 16)
    (hw : w.toNat = high * 16 + low) : x ||| y = w := by
  apply BitVec.eq_of_toNat_eq
  rw [hw, BitVec.toNat_or, hx, hy, ← Nat.shiftLeft_eq high 4, ← Nat.shiftLeft_add_eq_or_of_lt hlow]

/-- Settles O39: each `|` of the two rules joins a high and a low digit, and `F` is the pack of `szpFlags`. -/
theorem digitRotates : Obligations.DigitRotates := by
  intro i s hcalm hroom v flags new res hform
  have hlow : ∀ b : Byte, b.toNat % 16 < 16 := fun b => Nat.mod_lt _ (by decide)
  have hhigh : ∀ b : Byte, b.toNat / 16 < 16 := fun b => Nat.div_lt_of_lt_mul b.isLt
  refine ⟨(szpFlags res s.regs.flags).pack, unpackF_pack _, ?_⟩
  obtain ⟨hi, hnew, hres⟩ | ⟨hi, hnew, hres⟩ := hform
  case inl =>
    obtain rfl : v <<< 4 ||| s.regs.a &&& 0x0F = new :=
      or_digits_eq (shiftLeft4_toNat v) (and_0F_toNat s.regs.a) (hlow s.regs.a) hnew
    obtain rfl : s.regs.a &&& 0xF0 ||| v >>> 4 = res :=
      or_digits_eq (and_F0_toNat s.regs.a) (shiftRight4_toNat v) (hhigh v) hres
    exact exec_of_form hi (run_rld hcalm hroom)
  case inr =>
    obtain rfl : s.regs.a <<< 4 ||| v >>> 4 = new :=
      or_digits_eq (shiftLeft4_toNat s.regs.a) (shiftRight4_toNat v) (hhigh v) hnew
    obtain rfl : s.regs.a &&& 0xF0 ||| v &&& 0x0F = res :=
      or_digits_eq (and_F0_toNat s.regs.a) (and_0F_toNat v) (hlow v) hres
    exact exec_of_form hi (run_rrd hcalm hroom)

end Sys2Proof.Machine
end

section
/-! PROOFS of the family 47_bit.md. Each clause is the equation of the operation its form runs (Laws/Arithmetic.lean), carried
over to the instruction by `exec_of_form`; what is left is which bits the masks change. -/

namespace Sys2Proof.Machine

/-! ## Bit test (rules R520 to R522) -/

/-- `BIT` computes its flags from the registers before the update. -/
theorem run_bitReg (b : Fin 8) (r : Reg8) (s : State) :
    bitReg b r s = .ok () (s.withRegs fun g =>
      { g with f := (bitFlags b (s.regs.get8 r) (s.regs.get8 r) s.regs.flags).pack }) := rfl

/-- Bits 5 and 3 of a word's high byte are its bits 13 and 11. -/
theorem bitFlags_hi (b : Fin 8) (v : Byte) (w : Word) (k : Flags) :
    bitFlags b v (hi w) k =
      { s := decide (b = 7) && v.getLsbD b, z := !v.getLsbD b, y := w.getLsbD 13, h := true, x := w.getLsbD 11,
        pv := !v.getLsbD b, n := false, c := k.c } := by
  rw [bitFlags, Flags.yx_hi]
  rfl

/-- Settles O40: `F` is the pack of `bitFlags`, and in the memory forms `Y` and `X` come from a word's high byte. -/
theorem bitTestForms : Obligations.BitTestForms := by
  intro i s b flags
  refine ⟨fun z hi => ⟨(bitFlags b (s.regs.get8 z.reg) (s.regs.get8 z.reg) s.regs.flags).pack, unpackF_pack _,
      exec_of_form hi (run_bitReg b z.reg s)⟩, fun hform hread hroom => ?atHL,
    fun x d z hform hidle hread hroom => ?indexed⟩
  case atHL =>
    have hrun := run_bitHL b hread hroom
    rw [State.withRegs_setFlags] at hrun
    exact ⟨(bitFlags b (s.byteAt s.regs.hl) (hi s.regs.wz) s.regs.flags).pack, by rw [unpackF_pack, bitFlags_hi]; rfl,
      exec_of_form hform hrun⟩
  case indexed =>
    exact ⟨(bitFlags b (s.byteAt (s.regs.indexed x d)) (hi (s.regs.indexed x d)) s.regs.flags).pack,
      by rw [unpackF_pack, bitFlags_hi]; rfl, exec_of_form hform (run_bitIdx b x d hidle hread hroom)⟩

/-! ## Bit reset and set (rules R523 to R528) -/

theorem bitMask_getLsbD (b : Fin 8) (j : Nat) : (bitMask b).getLsbD j = decide (j = b.val) := by
  rw [bitMask, ← BitVec.twoPow_eq, BitVec.getLsbD_twoPow, decide_eq_true b.isLt, Bool.true_and, decide_eq_decide]
  exact eq_comm

theorem setBit_getLsbD (b : Fin 8) (v : Byte) (j : Nat) :
    (setBit b v).getLsbD j = if j = b.val then true else v.getLsbD j := by
  rw [setBit, BitVec.getLsbD_or, bitMask_getLsbD]
  split <;> simp [*]

theorem resBit_getLsbD (b : Fin 8) (v : Byte) {j : Nat} (hj : j < 8) :
    (resBit b v).getLsbD j = if j = b.val then false else v.getLsbD j := by
  rw [resBit, BitVec.getLsbD_and, BitVec.getLsbD_not, bitMask_getLsbD]
  split <;> simp [*]

theorem run_resReg (b : Fin 8) (r : Reg8) (s : State) :
    resReg b r s = .ok () (s.withRegs (·.set8 r (resBit b (s.regs.get8 r)))) := rfl

theorem run_setReg (b : Fin 8) (r : Reg8) (s : State) :
    setReg b r s = .ok () (s.withRegs (·.set8 r (setBit b (s.regs.get8 r)))) := rfl

/-- Settles O41: RES and SET each write one bit, whatever the operand, and the memory forms are one operation on their
operand and copy. -/
theorem bitWriteForms : Obligations.BitWriteForms := by
  intro i s b on
  refine ⟨fun z hform => ?reg, fun m copy hform hcalm hroom => ?mem⟩
  case reg =>
    obtain ⟨hi, rfl⟩ | ⟨hi, rfl⟩ := hform
    · exact ⟨_, fun j hj => resBit_getLsbD b _ hj, exec_of_form hi (run_resReg b z.reg s)⟩
    · exact ⟨_, fun j _ => setBit_getLsbD b _ j, exec_of_form hi (run_setReg b z.reg s)⟩
  case mem =>
    obtain ⟨hea, hdata⟩ := Bool.and_eq_true_iff.mp hcalm
    have hres := run_resMem b copy hea hdata hroom
    have hset := run_setMem b copy hea hdata hroom
    obtain ⟨hi, rfl, rfl, rfl⟩ | ⟨hi, rfl, rfl, rfl⟩ | ⟨x, d, hi, rfl, rfl⟩ | ⟨x, d, hi, rfl, rfl⟩ := hform
    · exact ⟨_, fun j hj => resBit_getLsbD b _ hj, exec_of_form hi hres⟩
    · exact ⟨_, fun j _ => setBit_getLsbD b _ j, exec_of_form hi hset⟩
    · exact ⟨_, fun j hj => resBit_getLsbD b _ hj, exec_of_form hi hres⟩
    · exact ⟨_, fun j _ => setBit_getLsbD b _ j, exec_of_form hi hset⟩

end Sys2Proof.Machine
end

section
/-! PROOFS of the family 48_jump_call.md. Each clause is the equation of the operation its form runs (Laws/Transfer.lean),
carried over to the instruction by `exec_of_form`. -/

namespace Sys2Proof.Machine

/-! ## Jumps (rules R540 to R546) -/

theorem run_jpReg (r : Reg16) (s : State) :
    jpReg r s = .ok () (s.withRegs fun g => { g with pc := g.get16 r }) := rfl

/-- DJNZ ends its loop where B counts down to 0. -/
theorem byte_sub_one_eq_zero {b : Byte} : b - 1 = 0 ↔ b = 1 := sub_eq_zero

/-- Which flag of `F` each condition looks at (30_encoding.md rule R166). -/
theorem condHolds_unpackF (f : Byte) :
    (condHolds .nz (unpackF f) = !f.getLsbD 6) ∧ (condHolds .z (unpackF f) = f.getLsbD 6) ∧
      (condHolds .nc (unpackF f) = !f.getLsbD 0) ∧ (condHolds .c (unpackF f) = f.getLsbD 0) ∧
      (condHolds .po (unpackF f) = !f.getLsbD 2) ∧ (condHolds .pe (unpackF f) = f.getLsbD 2) ∧
      (condHolds .p (unpackF f) = !f.getLsbD 7) ∧ (condHolds .m (unpackF f) = f.getLsbD 7) :=
  ⟨rfl, rfl, rfl, rfl, rfl, rfl, rfl, rfl⟩

/-- Settles O42: the relative jumps taken are one operation, after B for DJNZ. -/
theorem jumpForms : Obligations.JumpForms := fun _ s =>
  ⟨fun nn hi => exec_of_form hi (run_jumpTo nn s),
   fun y nn hi => exec_of_form hi (run_jpCc y nn s),
   fun hi => exec_of_form hi (run_jpReg .hl s),
   fun x hi => exec_of_form hi (run_jpReg x.reg s),
   fun _ e hi hcond => exec_of_form hi (run_jrCc_not e hcond),
   fun e hi hb => exec_of_form hi (run_djnz_not e (byte_sub_one_eq_zero.mpr hb)),
   fun hidle hroom =>
     ⟨fun e hi => exec_of_form hi (run_relative e hidle hroom),
      fun _ e hi hcond => exec_of_form hi (run_jrCc_taken e hcond hidle hroom),
      fun e hi hb => exec_of_form hi (run_djnz_taken e (mt byte_sub_one_eq_zero.mp hb) hidle hroom)⟩,
   condHolds_unpackF⟩

/-! ## Calls and returns (rules R547 to R553) -/

/-- Settles O43: CALL, taken or unconditional, is one operation, and so are RETI and RETN. -/
theorem callReturnForms : Obligations.CallReturnForms := by
  intro i s
  refine ⟨fun y nn hi hcond => exec_of_form hi (run_callCc_not nn hcond), fun nn hform hidle hpush hroom => ?call,
    fun y hi hidle hpush hroom => ?rst, fun hi hpop hroom => exec_of_form hi (run_ret hpop hroom),
    fun y hi hidle => ⟨fun hcond hroom => exec_of_form hi (run_retCc_not hcond hidle hroom),
      fun hcond hpop hroom => exec_of_form hi (run_retCc_taken hcond hidle hpop hroom)⟩,
    fun hform hpop hroom => ?returnInterrupt⟩
  case call =>
    obtain hi | ⟨y, hi, hcond⟩ := hform
    · exact exec_of_form hi (run_call nn hidle hpush hroom)
    · exact exec_of_form hi (run_callCc_taken nn hcond hidle hpush hroom)
  case rst =>
    rw [Nat.mul_comm 8]
    exact exec_of_form hi (run_rst y hidle hpush hroom)
  case returnInterrupt =>
    have hrun := run_returnInterrupt hpop hroom
    obtain hi | ⟨y, hi⟩ := hform <;> exact exec_of_form hi hrun

end Sys2Proof.Machine
end

section
/-! PROOFS of the family 49_io.md. Each clause is the equation of the operation its form runs (Laws/Transfer.lean), carried over
to the instruction by `exec_of_form`. -/

namespace Sys2Proof.Machine

/-! ## IN and OUT (rules R571 to R576) -/

/-- `IN r,(C)` computes its flags before the register is written. -/
theorem run_inRC_pack {s : State} (r : Reg8) (hcalm : s.calmIn s.regs.bc = true)
    (hroom : s.room (s.ioDelay s.regs.bc + 4)) :
    inRC r s = .ok () ((s.input s.regs.bc).withRegs fun g =>
      { g.set8 r (s.inputByte s.regs.bc) with
        f := (szpFlags (s.inputByte s.regs.bc) s.regs.flags).pack, wz := s.regs.bc + 1 }) := by
  rw [run_inRC r hcalm hroom]
  exact congrArg (EStateM.Result.ok ()) (State.withRegs_congr (by rw [input_regs]; rfl))

theorem run_inFC_pack {s : State} (hcalm : s.calmIn s.regs.bc = true) (hroom : s.room (s.ioDelay s.regs.bc + 4)) :
    inFC s = .ok () ((s.input s.regs.bc).withRegs fun g =>
      { g with f := (szpFlags (s.inputByte s.regs.bc) s.regs.flags).pack, wz := s.regs.bc + 1 }) := by
  rw [run_inFC hcalm hroom]
  exact congrArg (EStateM.Result.ok ()) (State.withRegs_congr (by rw [input_regs]; rfl))

/-- Settles O44: `F` is the pack of `szpFlags`, and the forms of OUT with (C) are one operation on their byte. -/
theorem portForms : Obligations.PortForms := by
  intro i s
  refine ⟨fun n hi hcalm hroom => exec_of_form hi (run_inAN n hcalm hroom),
    fun hcalm hroom => ⟨fun y hi => ⟨_, unpackF_pack (szpFlags (s.inputByte s.regs.bc) s.regs.flags), ?inRC⟩,
      fun hi => ⟨_, unpackF_pack (szpFlags (s.inputByte s.regs.bc) s.regs.flags), ?inFC⟩⟩,
    fun n hi hcalm hroom => exec_of_form hi (run_outNA n hcalm hroom), fun v hform hcalm hroom => ?outC⟩
  case inRC => exact exec_of_form hi (run_inRC_pack y.reg hcalm hroom)
  case inFC => exact exec_of_form hi (run_inFC_pack hcalm hroom)
  case outC =>
    obtain ⟨y, hi, rfl⟩ | ⟨hi, rfl⟩ := hform
    · exact exec_of_form hi (run_outCR y.reg hcalm hroom)
    · exact exec_of_form hi (run_outC _ hcalm hroom)

/-! ## The flags of a block iteration (rule R577) -/

/-- The low three bits of a sum. -/
theorem ofNat_and_7 (k : Nat) : BitVec.ofNat 8 k &&& 7 = BitVec.ofNat 8 (k % 8) := by
  apply BitVec.eq_of_toNat_eq
  have hmask : k % 256 &&& 7 = k % 256 % 8 := Nat.and_two_pow_sub_one_eq_mod (k % 256) 3
  rw [BitVec.toNat_and, BitVec.toNat_ofNat, BitVec.toNat_ofNat]
  exact hmask.trans (by omega)

/-- Settles O45: the parity is of the sum's low three bits against B. -/
theorem blockIoFlags : Obligations.BlockIoFlags := by
  intro v b addend k
  rw [unpackF_pack, ← ofNat_and_7]
  rfl

/-! ## Block input and output (rules R578 to R585) -/

theorem State.ioAgain_iff {s : State} {rep : Bool} : s.ioAgain rep = true ↔ rep = true ∧ s.regs.b - 1 ≠ 0 := by
  simp [State.ioAgain]

theorem blockInc_eq (dir : Dir) : blockInc dir = match dir with | .up => 1 | .down => -1 := by
  cases dir <;> rfl

/-- Settles O46: the two clauses are the two ways the operation ends. -/
theorem blockInput : Obligations.BlockInput := by
  intro i s dir rep hi hcalm hroom inc v again stored moved
  have hinc : blockInc dir = inc := blockInc_eq dir
  have hmoved : moved = fun g => g.inMoved dir v := by funext g; rw [Regs.inMoved, hinc]
  rw [hi] at hcalm hroom
  simp only [State.calmExec, State.execTime, Bool.and_eq_true] at hcalm hroom
  obtain ⟨⟨⟨hidle, hin⟩, hwrite⟩, hback⟩ := hcalm
  rw [hmoved]
  refine ⟨fun hagain => ?again, fun hlast => ?last⟩
  case again =>
    have hrep := State.ioAgain_iff.mpr hagain
    simp only [hrep, Bool.not_true, Bool.false_or, if_true] at hback hroom
    exact exec_of_form hi (run_inBlock_again dir rep hrep hidle hin hwrite hback (State.room_le hroom (by omega)))
  case last =>
    have hstop : s.ioAgain rep = false := Bool.eq_false_iff.mpr (mt State.ioAgain_iff.mp hlast)
    simp only [hstop, Bool.false_eq_true, if_false] at hroom
    exact exec_of_form hi (run_inBlock_last dir rep hstop hidle hin hwrite (State.room_le hroom (by omega)))

/-- Settles O47: the port is part of the registers before the update, so the two ways the operation ends are compared there;
they are the two clauses. -/
theorem blockOutput : Obligations.BlockOutput := by
  intro i s dir rep hi hcalm hroom inc v p again moved
  have hinc : blockInc dir = inc := blockInc_eq dir
  have hmoved : s.regs.outMoved dir v = moved s.regs := by rw [Regs.outMoved, hinc]
  rw [hi] at hcalm hroom
  simp only [State.calmExec, State.execTime, Bool.and_eq_true, ioDelay_beforeOut] at hcalm hroom
  obtain ⟨⟨⟨hidle, hread⟩, hout⟩, hback⟩ := hcalm
  refine ⟨fun hagain => ?again, fun hlast => ?last⟩
  case again =>
    have hrep := State.ioAgain_iff.mpr hagain
    simp only [hrep, Bool.not_true, Bool.false_or, if_true] at hback hroom
    have hrun := run_outBlock_again dir rep hrep hidle hread hout hback (State.room_le hroom (by omega))
    have hregs : ((s.after 4).output p v).withRegs (fun g => repeatPc (g.outMoved dir v)) =
        ((s.after 4).output p v).withRegs fun g => { moved g with pc := g.pc - 2 } :=
      State.withRegs_congr (congrArg repeatPc hmoved)
    exact hregs ▸ exec_of_form hi hrun
  case last =>
    have hstop : s.ioAgain rep = false := Bool.eq_false_iff.mpr (mt State.ioAgain_iff.mp hlast)
    simp only [hstop, Bool.false_eq_true, if_false] at hroom
    have hrun := run_outBlock_last dir rep hstop hidle hread hout (State.room_le hroom (by omega))
    have hregs : ((s.after 4).output p v).withRegs (·.outMoved dir v) = ((s.after 4).output p v).withRegs moved :=
      State.withRegs_congr hmoved
    exact hregs ▸ exec_of_form hi hrun

end Sys2Proof.Machine
end

section
/-! PROOFS of the family 50_bus.md. -/

namespace Sys2Proof.Machine

/-! ## What an input resolves to (rules R603 and R607) -/

theorem getLsbD_foldl_and (c : List Link) (f : Link → Byte) (a : Byte) (j : Nat) :
    (c.foldl (fun acc l => acc &&& f l) a).getLsbD j = (a.getLsbD j && c.all fun l => (f l).getLsbD j) := by
  induction c generalizing a with
  | nil => simp
  | cons l t ih => rw [List.foldl_cons, ih, BitVec.getLsbD_and, List.all_cons, Bool.and_assoc]

theorem getLsbD_foldl_or (c : List Link) (f : Link → Byte) (a : Byte) (j : Nat) :
    (c.foldl (fun acc l => acc ||| f l) a).getLsbD j = (a.getLsbD j || c.any fun l => (f l).getLsbD j) := by
  induction c generalizing a with
  | nil => simp
  | cons l t ih => rw [List.foldl_cons, ih, BitVec.getLsbD_or, List.any_cons, Bool.or_assoc]

/-- A bit is driven low where some device drives it and answers 0 there. -/
theorem portLow_getLsbD (s : State) (p : Word) {j : Nat} (hj : j < 8) :
    (s.portLow p).getLsbD j =
      s.chain.all fun l => (l.answerIn s.cc p).v.getLsbD j || !(l.answerIn s.cc p).drv.getLsbD j := by
  have hones : (0xFF : Byte).getLsbD j = true := BitVec.getLsbD_allOnes.trans (decide_eq_true hj)
  rw [State.portLow, getLsbD_foldl_and, hones, Bool.true_and]
  simp only [BitVec.getLsbD_or, BitVec.getLsbD_not, hj, decide_true, Bool.true_and]

theorem portDriven_getLsbD (s : State) (p : Word) (j : Nat) :
    (s.portDriven p).getLsbD j = s.chain.any fun l => (l.answerIn s.cc p).drv.getLsbD j := by
  have hzero : (0x00 : Byte).getLsbD j = false := BitVec.getLsbD_zero
  rw [State.portDriven, getLsbD_foldl_or, hzero, Bool.false_or]

/-- Where a device drives the bit, the floating bus does not count. -/
theorem portByte_driven {s : State} {p : Word} {j : Nat} (hj : j < 8)
    (h : ∃ l ∈ s.chain, (l.answerIn s.cc p).drv.getLsbD j = true) :
    (s.portByte p).getLsbD j = true ↔
      ∀ l ∈ s.chain, (l.answerIn s.cc p).drv.getLsbD j = true → (l.answerIn s.cc p).v.getLsbD j = true := by
  have hdrv : (s.portDriven p).getLsbD j = true := by rw [portDriven_getLsbD]; exact List.any_eq_true.mpr h
  rw [State.portByte, BitVec.getLsbD_and, BitVec.getLsbD_or, hdrv, Bool.or_true, Bool.and_true, portLow_getLsbD s p hj,
    List.all_eq_true]
  refine forall₂_congr fun l _ => ?_
  cases (l.answerIn s.cc p).drv.getLsbD j <;> simp

/-- Where none does, the bit is the floating bus's. -/
theorem portByte_floating {s : State} {p : Word} {j : Nat} (hj : j < 8)
    (h : ∀ l ∈ s.chain, (l.answerIn s.cc p).drv.getLsbD j = false) :
    (s.portByte p).getLsbD j = (s.cfg.floatingBusByte s.cc).getLsbD j := by
  have hdrv : (s.portDriven p).getLsbD j = false := by
    rw [portDriven_getLsbD]; exact List.any_eq_false.mpr fun l hl => by rw [h l hl]; exact Bool.false_ne_true
  have hlow : (s.portLow p).getLsbD j = true := by
    rw [portLow_getLsbD s p hj]; exact List.all_eq_true.mpr fun l hl => by rw [h l hl]; exact Bool.or_true _
  rw [State.portByte, BitVec.getLsbD_and, BitVec.getLsbD_or, hdrv, hlow, Bool.or_false, Bool.true_and]

/-- Settles O49: the byte is `portByte`, whose bits are driven or floating. -/
theorem inputMerge : Obligations.InputMerge := fun s p h =>
  ⟨s.portByte p, run_busIn h, fun _ hj => ⟨portByte_driven hj, portByte_floating hj⟩⟩

/-! ## The replay hook (rule R608) -/

/-- Settles O50: by the replay state, and in playback by whether the frame has a byte left. -/
theorem replayInput : Obligations.ReplayInput := by
  intro s v
  simp only [run_replayIn, State.replayByte, State.replayNext]
  refine ⟨fun fr b hm hfr hb => ?recorded, fun fr hm hfr hlen => ?exhausted, fun hm => ?recording, fun hm => ?live⟩
  case recorded => simp [hm, hfr, hb]
  case exhausted => simp [hm, hfr, List.getElem?_eq_none hlen]
  case recording => simp [hm]
  case live => obtain hm | hm | hm := hm <;> simp [hm]

/-! ## Effects (rule R601) -/

theorem run_unmapTag_unheld {s : State} {i tag : Nat} {l : Link} (hl : s.chain[i]? = some l) (h : l.handleOf tag = none) :
    unmapTag i tag s = .ok () s := by
  unfold unmapTag
  rw [run_bind_ok (run_get s), hl, Option.bind_some, h]
  rfl

/-- Settles O51: each effect but `Unmap` is one register change or one refusal. -/
theorem effectRules : Obligations.EffectRules := fun s _ _ ws =>
  ⟨run_refuse .effectNotAllowed s, run_modRegs (applyRegWrites ws) s, run_modRegs (fun g => { g with nmiPending := true }) s,
    run_refuse .notSuspended s, run_refuse .badPaging s, fun _ _ => run_unmapTag_unheld⟩

end Sys2Proof.Machine
end

section
/-! PROOFS of the family 50_bus.md: the signals of the paging protocol (rules R621 to R624). -/

namespace Sys2Proof.Machine

/-! ## What mapping leaves of the chain -/

/-- The action keeps the chain. -/
def KeepsChain {α : Type} (m : M α) : Prop := Moves (fun s t => t.chain = s.chain) m

section KeepsChain
variable {α β : Type}

/-- An action that ends normally ends each of its parts normally. -/
theorem ok_of_bind {m : M α} {f : α → M β} {s t : State} {b : β} (h : (m >>= f) s = .ok b t) :
    ∃ a u, m s = .ok a u ∧ f a u = .ok b t := by
  rw [run_bind] at h
  cases hs : m s with
  | error e u => rw [hs] at h; cases h
  | ok a u => rw [hs] at h; exact ⟨a, u, rfl, h⟩

theorem keepsChain_bind {m : M α} {f : α → M β} (hm : KeepsChain m) (hf : ∀ a, KeepsChain (f a)) :
    KeepsChain (m >>= f) := by
  intro s b t he
  obtain ⟨a, u, hs, he⟩ := ok_of_bind he
  exact (hf a u b t he).trans (hm s a u hs)

theorem keepsChain_pure (a : α) : KeepsChain (pure a : M α) := by
  intro s b t he
  cases he
  rfl

theorem keepsChain_mapM {f : α → M β} (hf : ∀ a, KeepsChain (f a)) (l : List α) : KeepsChain (l.mapM f) := by
  induction l with
  | nil => exact keepsChain_pure _
  | cons a l ih =>
    rw [List.mapM_cons]
    exact keepsChain_bind (hf a) fun _ => keepsChain_bind ih fun _ => keepsChain_pure _

theorem keepsChain_forM {f : α → M PUnit} (hf : ∀ a, KeepsChain (f a)) (l : List α) : KeepsChain (l.forM f) := by
  induction l with
  | nil => exact keepsChain_pure _
  | cons a l ih => exact keepsChain_bind (hf a) fun _ => ih

end KeepsChain

theorem keepsChain_unmapPages (h : Nat) : KeepsChain (unmapPages h) := by
  intro s a t he
  rw [run_unmapPages] at he
  split at he <;> cases he
  rfl

theorem keepsChain_mapPages (q : MapReq) : KeepsChain (mapPages q) := by
  refine moves_of_get fun s => movesFrom_ite (fun _ => movesFrom_refuse _ s) fun _ =>
    movesFrom_ite (fun _ => movesFrom_refuse _ s) fun _ => ?_
  intro a t he
  cases he
  rfl

/-- `MapOwn(i)` changes the chain at link `i`'s list of handles alone (rule R625). -/
theorem chain_of_mapOwn {i : Nat} {s t : State} {a : Unit} (h : mapOwn i s = .ok a t) :
    ∃ ovl, t.chain = s.chain.modify i fun k => { k with ovl := ovl } := by
  unfold mapOwn at h
  rw [run_bind_ok (run_get s)] at h
  cases hl : s.chain[i]? with
  | none =>
    rw [hl] at h
    cases h
    exact ⟨[], (List.modify_eq_self (by simpa using hl)).symm⟩
  | some l =>
    rw [hl] at h
    obtain ⟨new, u, hmap, h⟩ := ok_of_bind h
    obtain ⟨_, v, hunmap, h⟩ := ok_of_bind h
    cases h
    have hu : u.chain = s.chain := keepsChain_mapM keepsChain_mapPages _ s new u hmap
    have hv : v.chain = u.chain := keepsChain_forM keepsChain_unmapPages _ u _ v hunmap
    exact ⟨new, by rw [← hu, ← hv]⟩

/-! ## The signals (rule R624) -/

/-- `hidden[k]` holds exactly when some later link wants. -/
def State.hiddenRight (s : State) (k : Nat) : Prop := s.hidden k = true ↔ ∃ m, k < m ∧ s.want m = true

theorem any_want_iff {chain : List Link} : chain.any (·.want) = true ↔ ∃ m : Nat, chain[m]?.any (·.want) = true := by
  simp only [List.any_eq_true, List.mem_iff_getElem?, Option.any_eq_true]
  exact ⟨fun ⟨l, ⟨m, hl⟩, hw⟩ => ⟨m, l, hl, hw⟩, fun ⟨m, l, hl, hw⟩ => ⟨l, ⟨m, hl⟩, hw⟩⟩

theorem exists_gt_iff {P : Nat → Prop} {k : Nat} : (∃ m, k < m ∧ P m) ↔ ∃ m, k ≤ m ∧ P (m + 1) := by
  constructor
  · rintro ⟨m, hm, h⟩
    obtain ⟨n, rfl⟩ := Nat.exists_eq_add_of_lt hm
    exact ⟨k + n, Nat.le_add_right k n, h⟩
  · exact fun ⟨m, hm, h⟩ => ⟨m + 1, Nat.lt_succ_of_le hm, h⟩

/-- `pagingOk` says of every link what rule R624 says. -/
theorem pagingOk_iff {s : State} : pagingOk s.chain = true ↔ ∀ k, s.hiddenRight k := by
  simp only [State.hiddenRight, State.hidden, State.want]
  generalize s.chain = chain
  induction chain with
  | nil => simp [pagingOk]
  | cons l t ih =>
    rw [pagingOk, Bool.and_eq_true, ih, beq_iff_eq, Bool.eq_iff_iff, any_want_iff]
    refine Iff.trans ?_ Nat.and_forall_add_one
    simp [exists_gt_iff]

theorem want_of_modify {s t : State} {j : Nat} {f : Link → Link} (h : t.chain = s.chain.modify j f) (k : Nat) :
    t.want k = if j = k then s.chain[j]?.any fun l => (f l).want else s.want k := by
  rw [State.want, h, List.getElem?_modify]
  split
  · next hk => subst hk; cases s.chain[j]? <;> rfl
  · cases hc : s.chain[k]? <;> simp [State.want, hc]

theorem hidden_of_modify {s t : State} {j : Nat} {f : Link → Link} (h : t.chain = s.chain.modify j f) (k : Nat) :
    t.hidden k = if j = k then s.chain[j]?.any fun l => (f l).hidden else s.hidden k := by
  rw [State.hidden, h, List.getElem?_modify]
  split
  · next hk => subst hk; cases s.chain[j]? <;> rfl
  · cases hc : s.chain[k]? <;> simp [State.hidden, hc]

theorem want_of_modify_same {s t : State} {j : Nat} {f : Link → Link} (h : t.chain = s.chain.modify j f)
    (hf : ∀ l, (f l).want = l.want) (k : Nat) : t.want k = s.want k := by
  rw [want_of_modify h]
  split
  · next hk => subst hk; simp only [hf, State.want]
  · rfl

theorem hidden_of_modify_same {s t : State} {j : Nat} {f : Link → Link} (h : t.chain = s.chain.modify j f)
    (hf : ∀ l, (f l).hidden = l.hidden) (k : Nat) : t.hidden k = s.hidden k := by
  rw [hidden_of_modify h]
  split
  · next hk => subst hk; simp only [hf, State.hidden]
  · rfl

/-- `MapOwn` changes no signal. -/
theorem hiddenRight_of_mapOwn {i : Nat} {s t : State} {a : Unit} (h : mapOwn i s = .ok a t) (k : Nat) :
    t.hiddenRight k ↔ s.hiddenRight k := by
  obtain ⟨ovl, hc⟩ := chain_of_mapOwn h
  simp only [State.hiddenRight, want_of_modify_same hc fun _ => rfl, hidden_of_modify_same hc fun _ => rfl]

/-- `SetRomVisible(j, v)` writes `hidden[j]`, and then ends at a link that wants or at `L[0]`, or goes on in front of it
(rule R623). -/
theorem setRomVisible_cases {j : Nat} {v : Bool} {s t : State} {a : Unit} (h : setRomVisible j v s = .ok a t) :
    ∃ u : State, u.chain = s.chain.modify j (fun l => { l with hidden := !v }) ∧
      ((s.want j = true ∨ j = 0) ∧ (t = u ∨ mapOwn j u = .ok a t) ∨
        ∃ k, j = k + 1 ∧ s.want j = false ∧ setRomVisible k v u = .ok a t) := by
  refine ⟨{ s with chain := s.chain.modify j fun l => { l with hidden := !v } }, rfl, ?_⟩
  unfold setRomVisible at h
  obtain ⟨_, u, hu, h⟩ := ok_of_bind h
  cases hu
  rw [run_bind_ok (run_get _), want_of_modify_same (f := fun l => { l with hidden := !v }) rfl fun _ => rfl] at h
  cases hwant : s.want j with
  | true =>
    rw [hwant] at h
    cases v with
    | true => exact .inl ⟨.inl rfl, .inr h⟩
    | false => cases h; exact .inl ⟨.inl rfl, .inl rfl⟩
  | false =>
    rw [hwant] at h
    cases j with
    | zero => cases v <;> cases h <;> exact .inl ⟨.inr rfl, .inl rfl⟩
    | succ k => cases v <;> exact .inr ⟨k, rfl, rfl, h⟩

/-- `SetRomVisible(j, v)` makes every `hidden` right, where those behind `j` are, `v` says that no link behind `j` wants, and
the links before a wanting one up to `j` are hidden. -/
theorem hiddenRight_of_setRomVisible {j : Nat} {v : Bool} {s t : State} {a : Unit} (h : setRomVisible j v s = .ok a t)
    (hj : j < s.chain.length) (hbehind : ∀ k, j < k → s.hiddenRight k) (hv : (∃ m, j < m ∧ s.want m = true) ↔ v = false)
    (hbefore : ∀ k m, k < m → m ≤ j → s.want m = true → s.hidden k = true) : ∀ k, t.hiddenRight k := by
  induction j using Nat.strong_induction_on generalizing s with
  | _ j ih =>
    obtain ⟨u, hu, hcase⟩ := setRomVisible_cases h
    have hwant : ∀ k, u.want k = s.want k := want_of_modify_same hu fun _ => rfl
    have hhidden : ∀ k, u.hidden k = if j = k then !v else s.hidden k := by
      simpa [List.getElem?_eq_getElem hj] using hidden_of_modify hu
    have hright : ∀ k, j ≤ k → u.hiddenRight k := by
      intro k hk
      obtain rfl | hlt := Nat.eq_or_lt_of_le hk
      · simp [State.hiddenRight, hwant, hhidden, hv]
      · simpa [State.hiddenRight, hwant, hhidden, Nat.ne_of_lt hlt] using hbehind k hlt
    obtain ⟨hend, htu⟩ | ⟨k, rfl, hno, hnext⟩ := hcase
    · have hall : ∀ k, u.hiddenRight k := by
        intro k
        by_cases hk : j ≤ k
        · exact hright k hk
        · have hlt := Nat.not_le.mp hk
          have hj : s.want j = true := hend.resolve_right (Nat.ne_zero_of_lt hlt)
          have hkh : u.hidden k = true := by
            rw [hhidden, if_neg (Nat.ne_of_gt hlt), hbefore k j hlt (Nat.le_refl j) hj]
          exact iff_of_true hkh ⟨j, hlt, (hwant j).trans hj⟩
      obtain rfl | hmap := htu
      · exact hall
      · exact fun k => (hiddenRight_of_mapOwn hmap k).mpr (hall k)
    · refine ih k (Nat.lt_succ_self k) hnext (by rw [hu, List.length_modify]; omega) hright ?_ ?_
      · rw [← hv]
        constructor
        · rintro ⟨m, hm, hw⟩
          rw [hwant] at hw
          obtain rfl | hlt := Nat.eq_or_lt_of_le (Nat.succ_le_of_lt hm)
          · rw [hno] at hw; cases hw
          · exact ⟨m, hlt, hw⟩
        · exact fun ⟨m, hm, hw⟩ => ⟨m, by omega, (hwant m).trans hw⟩
      · intro k' m hk' hm hw
        rw [hhidden, if_neg (by omega)]
        exact hbefore k' m hk' (by omega) ((hwant m).symm.trans hw)

/-! ## StartWanting and StopWanting (rules R621 and R622) -/

theorem startWanting_cases {i : Nat} {s t : State} {a : Unit} (h : startWanting i s = .ok a t) :
    (s.want i = true ∧ t = s) ∨ ∃ u w : State, u.chain = s.chain.modify i (fun l => { l with want := true }) ∧
      ((i = 0 ∧ w = u) ∨ ∃ j, i = j + 1 ∧ setRomVisible j false u = .ok () w) ∧ (t = w ∨ mapOwn i w = .ok a t) := by
  unfold startWanting at h
  rw [run_bind_ok (run_get s)] at h
  cases hwant : s.want i with
  | true =>
    rw [hwant] at h
    cases h
    exact .inl ⟨rfl, rfl⟩
  | false =>
    rw [hwant] at h
    obtain ⟨_, u, hu, h⟩ := ok_of_bind h
    cases hu
    have hlast {w : State} (hw : ((get : M State) >>= fun r => if r.hidden i then pure () else mapOwn i : M Unit) w = .ok a t) :
        t = w ∨ mapOwn i w = .ok a t := by
      rw [run_bind_ok (run_get w)] at hw
      cases hh : w.hidden i <;> rw [hh] at hw
      · exact .inr hw
      · cases hw; exact .inl rfl
    cases i with
    | zero => exact .inr ⟨_, _, rfl, .inl ⟨rfl, rfl⟩, hlast h⟩
    | succ j =>
      obtain ⟨_, w, hset, h⟩ := ok_of_bind h
      exact .inr ⟨_, w, rfl, .inr ⟨j, rfl, hset⟩, hlast h⟩

theorem stopWanting_cases {i : Nat} {s t : State} {a : Unit} (h : stopWanting i s = .ok a t) :
    (s.want i = false ∧ t = s) ∨ ∃ (j : Nat) (u : State), i = j + 1 ∧ s.want i = true ∧
      u.chain = s.chain.modify i (fun l => { l with want := false }) ∧
      ((s.hidden i = true ∧ t = u) ∨ (s.hidden i = false ∧ setRomVisible j true u = .ok a t)) := by
  unfold stopWanting at h
  cases i with
  | zero => cases h
  | succ j =>
    dsimp only at h
    rw [run_bind_ok (run_get s)] at h
    cases hwant : s.want (j + 1) with
    | false =>
      rw [hwant] at h
      cases h
      exact .inl ⟨rfl, rfl⟩
    | true =>
      rw [hwant] at h
      obtain ⟨_, u, hu, h⟩ := ok_of_bind h
      cases hu
      rw [run_bind_ok (run_get _), hidden_of_modify_same (f := fun l => { l with want := false }) rfl fun _ => rfl] at h
      cases hh : s.hidden (j + 1) <;> rw [hh] at h
      · exact .inr ⟨j, _, rfl, rfl, rfl, .inr ⟨rfl, h⟩⟩
      · cases h; exact .inr ⟨j, _, rfl, rfl, rfl, .inl ⟨rfl, rfl⟩⟩

section Wanting
variable {i : Nat} {s u : State} {b : Bool} (hu : u.chain = s.chain.modify i fun l => { l with want := b })
  (hs : ∀ k, s.hiddenRight k)
include hu hs

/-- What a link wants is no matter to itself and to the links behind it. -/
theorem hiddenRight_behind {k : Nat} (hk : i ≤ k) : u.hiddenRight k := by
  have hlater : (∃ m, k < m ∧ u.want m = true) ↔ ∃ m, k < m ∧ s.want m = true := by
    refine exists_congr fun m => and_congr_right fun hm => ?_
    rw [want_of_modify hu, if_neg (by omega)]
  rw [State.hiddenRight, hlater, hidden_of_modify_same hu fun _ => rfl]
  exact hs k

/-- Links before another that wants are hidden, whatever `i` wants. -/
theorem hidden_before {k m : Nat} (hk : k < m) (hm : m < i) (hw : u.want m = true) : u.hidden k = true := by
  rw [want_of_modify hu, if_neg (Nat.ne_of_gt hm)] at hw
  rw [hidden_of_modify_same hu fun _ => rfl]
  exact (hs k).mpr ⟨m, hk, hw⟩

end Wanting

theorem hiddenRight_of_startWanting {i : Nat} {s t : State} {a : Unit} (h : startWanting i s = .ok a t)
    (hi : i < s.chain.length) (hs : ∀ k, s.hiddenRight k) : ∀ k, t.hiddenRight k := by
  obtain ⟨-, rfl⟩ | ⟨u, w, hu, hset, hmap⟩ := startWanting_cases h
  · exact hs
  · have hw : ∀ k, w.hiddenRight k := by
      obtain ⟨rfl, rfl⟩ | ⟨j, rfl, hset⟩ := hset
      · exact fun k => hiddenRight_behind hu hs (Nat.zero_le k)
      · have hwant : u.want (j + 1) = true := by
          rw [want_of_modify hu, if_pos rfl, List.getElem?_eq_getElem hi]
          rfl
        exact hiddenRight_of_setRomVisible hset (by rw [hu, List.length_modify]; omega)
          (fun k hk => hiddenRight_behind hu hs hk) (iff_of_true ⟨j + 1, Nat.lt_succ_self j, hwant⟩ rfl)
          fun k m hk hm => hidden_before hu hs hk (Nat.lt_succ_of_le hm)
    obtain rfl | hmap := hmap
    · exact hw
    · exact fun k => (hiddenRight_of_mapOwn hmap k).mpr (hw k)

theorem hiddenRight_of_stopWanting {i : Nat} {s t : State} {a : Unit} (h : stopWanting i s = .ok a t)
    (hi : i < s.chain.length) (hs : ∀ k, s.hiddenRight k) : ∀ k, t.hiddenRight k := by
  obtain ⟨-, rfl⟩ | ⟨j, u, rfl, hwant, hu, ⟨hh, rfl⟩ | ⟨hh, hset⟩⟩ := stopWanting_cases h
  · exact hs
  · -- a link behind wants, and hides every link before it as link `j + 1` did
    intro k
    by_cases hk : j + 1 ≤ k
    · exact hiddenRight_behind hu hs hk
    · obtain ⟨m, hm, hmw⟩ := (hs (j + 1)).mp hh
      have hkh : t.hidden k = true := by
        rw [hidden_of_modify_same hu fun _ => rfl]
        exact (hs k).mpr ⟨j + 1, Nat.not_le.mp hk, hwant⟩
      refine iff_of_true hkh ⟨m, by omega, ?_⟩
      rw [want_of_modify hu, if_neg (Nat.ne_of_lt hm), hmw]
  · have hnone : ¬∃ m, j < m ∧ u.want m = true := by
      rintro ⟨m, hm, hmw⟩
      rw [want_of_modify hu] at hmw
      split at hmw
      · rw [List.getElem?_eq_getElem hi] at hmw; cases hmw
      · next hne => exact absurd ((hs (j + 1)).mpr ⟨m, by omega, hmw⟩) (by simp [hh])
    exact hiddenRight_of_setRomVisible hset (by rw [hu, List.length_modify]; omega)
      (fun k hk => hiddenRight_behind hu hs hk) (iff_of_false hnone (by decide))
      fun k m hk hm => hidden_before hu hs hk (Nat.lt_succ_of_le hm)

/-- Settles O7: what `pagingOk` says of each link is kept by either operation. -/
theorem pagingSignalsKept : Obligations.PagingSignalsKept := fun i s t hs hi h => by
  rw [pagingOk_iff] at hs ⊢
  exact h.elim (hiddenRight_of_startWanting · hi hs) (hiddenRight_of_stopWanting · hi hs)

end Sys2Proof.Machine
end

section
/-! PROOFS of the family 50_bus.md: attaching and detaching a link (rules R631 and R632). -/

namespace Sys2Proof.Machine

/-! ## Attaching -/

/-- The link as it stands in the chain once its power-on handler, which has no effects, has been called. -/
def Link.poweredOn (l : Link) (cc : Int) : Link := { l with dev := (l.handlers.powerOn.call (.powerOn l.dev cc)).dev }

theorem run_attach_badPattern {s : State} {pos : Nat} {l : Link} (h : l.badPattern = true) :
    attach pos l s = .error (.refused .badPattern) s := by
  unfold attach
  rw [run_bind_ok (run_get s), h]
  rfl

theorem run_attach_badPosition {s : State} {pos : Nat} {l : Link} (h : l.badPattern = false)
    (hpos : pos = 0 ∨ s.chain.length < pos) : attach pos l s = .error (.refused .badPosition) s := by
  unfold attach
  rw [run_bind_ok (run_get s), h, if_neg Bool.false_ne_true]
  exact congrFun (if_pos (by simpa using hpos)) s

/-- `Attach` inserts the link and then calls its power-on handler in its place. -/
theorem run_attach {s : State} {pos : Nat} {l : Link} (h : l.badPattern = false) (hpos : 0 < pos)
    (hlen : pos ≤ s.chain.length) (hcalm : (l.handlers.powerOn.call (.powerOn l.dev s.cc)).effects = []) :
    attach pos l s = .ok () { s with
      chain := s.chain.take pos ++
        (l.fresh false ((s.chain.drop pos).any (·.want))).poweredOn s.cc :: s.chain.drop pos
      results := s.results ++ [.done]
      phase := .suspended } := by
  have hplace : (s.chain.take pos).length = pos := List.length_take_of_le hlen
  have hmod := modify_middle (s.chain.take pos) (l.fresh false ((s.chain.drop pos).any (·.want))) (s.chain.drop pos)
    fun k => { k with dev := (l.handlers.powerOn.call (.powerOn l.dev s.cc)).dev }
  rw [hplace] at hmod
  unfold attach
  rw [run_bind_ok (run_get s), h, if_neg Bool.false_ne_true, if_neg (by simp; omega)]
  rw [run_bind_ok (run_set _ s), run_bind_ok (run_runHandler hcalm), hmod]
  simp [answer, run_modify, Link.poweredOn]

/-! ## Removing a link's mappings -/

/-- The pages without the mappings of a list of handles. -/
def PageTable.without (p : PageTable) (hs : List Nat) : PageTable :=
  p.map fun stack => stack.filter fun x => decide (x.handle ∉ hs)

theorem PageTable.without_nil (p : PageTable) : p.without [] = p := by simp [PageTable.without]

theorem PageTable.without_cons (p : PageTable) (h : Nat) (hs : List Nat) :
    (p.remove h).without hs = p.without (h :: hs) := by
  simp only [PageTable.without, PageTable.remove, List.map_map]
  refine List.map_congr_left fun stack _ => ?_
  simp only [Function.comp_apply, List.filter_filter]
  refine List.filter_congr fun x _ => ?_
  simp [Bool.and_comm, bne, beq_eq_decide]

theorem mem_remove {p : PageTable} {h : Nat} {stack : List Mapping} :
    stack ∈ p.remove h ↔ ∃ old ∈ p, stack = old.filter (·.handle != h) := by
  simp [PageTable.remove, eq_comm]

/-- Distinct handles that are all held, and that leave every page a mapping, are unmapped one after another. -/
theorem run_forM_unmapPages {hs : List Nat} {s : State} (hdup : hs.Nodup)
    (hheld : ∀ h ∈ hs, ∃ stack ∈ s.pages, ∃ x ∈ stack, x.handle = h)
    (hkeep : ∀ stack ∈ s.pages, ∃ x ∈ stack, x.handle ∉ hs) :
    hs.forM unmapPages s = .ok ⟨⟩ { s with pages := s.pages.without hs } := by
  induction hs generalizing s with
  | nil => rw [PageTable.without_nil]; rfl
  | cons h hs ih =>
    obtain ⟨hnew, hdup⟩ := List.nodup_cons.mp hdup
    have hfirst : unmapPages h s = .ok () { s with pages := s.pages.remove h } := by
      refine run_unmapPages_held (hheld h List.mem_cons_self) fun stack hst _ => ?_
      obtain ⟨x, hx, hxh⟩ := hkeep stack hst
      exact ⟨x, hx, fun he => hxh (he ▸ List.mem_cons_self)⟩
    rw [List.forM_eq_forM, List.forM_cons, ← List.forM_eq_forM, run_bind_ok hfirst, ih hdup ?held ?keep]
    · rw [PageTable.without_cons]
    case held =>
      intro h' hh'
      obtain ⟨stack, hst, x, hx, rfl⟩ := hheld h' (List.mem_cons_of_mem h hh')
      have hne : x.handle ≠ h := fun he => hnew (he ▸ hh')
      exact ⟨_, mem_remove.mpr ⟨stack, hst, rfl⟩, x, List.mem_filter.mpr ⟨hx, bne_iff_ne.mpr hne⟩, rfl⟩
    case keep =>
      intro stack hst
      obtain ⟨old, hold, rfl⟩ := mem_remove.mp hst
      obtain ⟨x, hx, hxh⟩ := hkeep old hold
      rw [List.mem_cons, not_or] at hxh
      exact ⟨x, List.mem_filter.mpr ⟨hx, bne_iff_ne.mpr hxh.1⟩, hxh.2⟩

/-- Where the handles are all that a page has, one of them is not unmapped. -/
theorem run_forM_unmapPages_last {hs : List Nat} {s : State}
    (hlast : ∃ stack ∈ s.pages, stack ≠ [] ∧ ∀ x ∈ stack, x.handle ∈ hs) :
    ∃ u, hs.forM unmapPages s = .error (.refused .badUnmap) u := by
  induction hs generalizing s with
  | nil =>
    obtain ⟨stack, -, hne, hall⟩ := hlast
    obtain ⟨x, hx⟩ := List.exists_mem_of_ne_nil _ hne
    cases hall x hx
  | cons h hs ih =>
    rw [List.forM_eq_forM, List.forM_cons, ← List.forM_eq_forM]
    cases hok : s.pages.holds h && !s.pages.emptiedBy h with
    | false => exact ⟨s, run_bind_error (by rw [run_unmapPages, hok]; rfl)⟩
    | true =>
      obtain ⟨stack, hst, hne, hall⟩ := hlast
      have hfirst : unmapPages h s = .ok () { s with pages := s.pages.remove h } := by rw [run_unmapPages, hok]; rfl
      rw [run_bind_ok hfirst]
      refine ih ⟨_, mem_remove.mpr ⟨stack, hst, rfl⟩, fun hnil => ?_, fun x hx => ?_⟩
      · have hemptied : s.pages.emptiedBy h = true :=
          emptiedBy_iff.mpr ⟨stack, hst, hne, by simpa [List.filter_eq_nil_iff] using hnil⟩
        simp [hemptied] at hok
      · obtain ⟨hx, hxh⟩ := List.mem_filter.mp hx
        exact (List.mem_cons.mp (hall x hx)).resolve_left (bne_iff_ne.mp hxh)

/-! ## Detaching -/

/-- `SetRomVisible(j, v)` leaves the links behind `j` alone. -/
theorem getElem?_of_setRomVisible {j : Nat} {v : Bool} {s t : State} {a : Unit} (h : setRomVisible j v s = .ok a t) {k : Nat}
    (hk : j < k) : t.chain[k]? = s.chain[k]? := by
  induction j using Nat.strong_induction_on generalizing s with
  | _ j ih =>
    obtain ⟨u, hu, hcase⟩ := setRomVisible_cases h
    have hsame : u.chain[k]? = s.chain[k]? := by rw [hu, List.getElem?_modify_ne _ _ (Nat.ne_of_lt hk)]
    obtain ⟨-, rfl | hmap⟩ | ⟨j, rfl, -, hnext⟩ := hcase
    · exact hsame
    · obtain ⟨ovl, hc⟩ := chain_of_mapOwn hmap
      rw [hc, List.getElem?_modify_ne _ _ (Nat.ne_of_lt hk), hsame]
    · rw [ih j (Nat.lt_succ_self j) hnext (by omega), hsame]

/-- `StopWanting(i)` changes the link itself only in what it wants. -/
theorem getElem?_of_stopWanting {i : Nat} {s t : State} {a : Unit} {l : Link} (h : stopWanting i s = .ok a t)
    (hl : s.chain[i]? = some l) : ∃ b, t.chain[i]? = some { l with want := b } := by
  obtain ⟨-, rfl⟩ | ⟨j, u, rfl, -, hu, hend⟩ := stopWanting_cases h
  · exact ⟨l.want, hl⟩
  · have hlink : u.chain[j + 1]? = some { l with want := false } := by
      rw [hu, List.getElem?_modify_eq, hl]
      rfl
    obtain ⟨-, rfl⟩ | ⟨-, hset⟩ := hend
    · exact ⟨false, hlink⟩
    · exact ⟨false, (getElem?_of_setRomVisible hset (Nat.lt_succ_self j)).trans hlink⟩

/-- The end of `Detach(i)`: the link's mappings are unmapped, and the link is taken out of the chain. -/
def unlink (i : Nat) : M Unit := do
  match (← get).chain[i]? with
  | some l =>
    l.ovl.forM unmapPages
    (l.maps.map (·.2)).forM unmapPages
  | none => pure ()
  modify fun s => { s with chain := s.chain.eraseIdx i }
  answer .done

theorem run_detach_badPosition {s : State} {i : Nat} (h : i = 0 ∨ s.chain.length ≤ i) :
    detach i s = .error (.refused .badPosition) s := by
  unfold detach
  rw [run_bind_ok (run_get s)]
  exact congrFun (if_pos (by simpa using h)) s

/-- `Detach(i)` ends a wanting link's wanting first. -/
theorem run_detach {s t : State} {i : Nat} {l : Link} (hi : 0 < i) (hl : s.chain[i]? = some l)
    (ht : if l.want then stopWanting i s = .ok () t else t = s) : detach i s = unlink i t := by
  obtain ⟨hlen, -⟩ := List.getElem?_eq_some_iff.mp hl
  have hwant : s.want i = l.want := by rw [State.want, hl]; rfl
  unfold detach
  rw [run_bind_ok (run_get s)]
  refine (congrFun (if_neg (by simp; omega)) s).trans ?_
  rw [run_bind_ok (run_get s), hwant]
  cases hw : l.want <;> rw [hw] at ht
  · cases ht; rfl
  · exact run_bind_ok ht

theorem run_unlink {t : State} {i : Nat} {l : Link} (hl : t.chain[i]? = some l) :
    unlink i t = ((l.ovl ++ l.maps.map (·.2)).forM unmapPages >>= fun _ => do
      modify fun s => { s with chain := s.chain.eraseIdx i }
      answer .done) t := by
  unfold unlink
  rw [run_bind_ok (run_get t), hl]
  simp only [List.forM_eq_forM, List.forM_append, bind_assoc]

/-- Settles O58: attaching by its two checks, detaching by whether the handles leave every page a mapping. -/
theorem attachRules : Obligations.AttachRules := by
  intro s
  refine ⟨fun pos l => ⟨run_attach_badPattern, run_attach_badPosition, run_attach⟩, fun i => run_detach_badPosition,
    fun i l t hi hl ht => ?detach⟩
  intro handles hdup hheld
  obtain ⟨b, htl⟩ : ∃ b, t.chain[i]? = some { l with want := b } := by
    cases hw : l.want <;> rw [hw] at ht
    · cases ht; exact ⟨l.want, hl⟩
    · exact getElem?_of_stopWanting ht hl
  have hrun : detach i s = (handles.forM unmapPages >>= fun _ => do
      modify fun s => { s with chain := s.chain.eraseIdx i }
      answer .done) t := (run_detach hi hl ht).trans (run_unlink (l := { l with want := b }) htl)
  rw [hrun]
  refine ⟨fun hkeep => run_bind_ok (run_forM_unmapPages hdup hheld hkeep), fun hlast => ?_⟩
  obtain ⟨u, hu⟩ := run_forM_unmapPages_last hlast
  exact ⟨u, run_bind_error hu⟩

end Sys2Proof.Machine
end

section
/-! PROOFS of the family 55_scheduler_replay.md: recording and playback at a flyback, and one pass of the scheduler loop. -/

namespace Sys2Proof.Machine

/-! ## ReplaySync at a flyback (rules R666 and R667) -/

/-- A block's snapshot is its identifier, its length and its data. -/
theorem map_snap_eq_iff {mem : List Block} {blocks : List BlockSnap} :
    mem.map Block.snap = blocks ↔
      mem.map (fun b => (b.id, b.len, b.data)) = blocks.map fun b => (b.id, b.len, b.data) := by
  have hinj : Function.Injective fun b : BlockSnap => (b.id, b.len, b.data) := by
    rintro ⟨_, _, _⟩ ⟨_, _, _⟩ h
    simpa using h
  rw [← hinj.list_map.eq_iff, List.map_map]
  rfl

theorem State.same_iff {s : State} {snap : Snapshot} : s.same snap = true ↔
    s.regs = snap.regs ∧ s.cc = snap.cc ∧ s.ic = snap.ic ∧ s.cpf = snap.cpf ∧
      s.mem.map (fun b => (b.id, b.len, b.data)) = snap.blocks.map fun b => (b.id, b.len, b.data) := by
  simp only [State.same, Bool.and_eq_true, decide_eq_true_eq, map_snap_eq_iff, and_assoc]

theorem run_replayFlyback_idle {s : State} (closeIc : Nat) (h : s.replayMode = .idle) :
    replayFlyback closeIc s = .ok () s := by
  simp only [replayFlyback, run_modify, h]

theorem run_replayFlyback_recording {s : State} (closeIc : Nat) (h : s.replayMode = .recording) :
    replayFlyback closeIc s = .ok () (s.closeFrame closeIc s.cfg.snapshotInterval) := by
  simp only [replayFlyback, run_modify, h]

theorem run_replayFlyback_playing {s : State} (closeIc : Nat) (h : s.replayMode = .playing) :
    replayFlyback closeIc s = .ok () s.nextFrame := by
  simp only [replayFlyback, run_modify, h]

theorem State.nextFrame_last {s : State} (h : s.frameIx + 1 = s.stream.length) :
    s.nextFrame = { s with frameIx := s.frameIx + 1, byteIx := 0, replayMode := .endOfFile } := if_pos h

/-- Before the stream's end the next frame's snapshot, if it has one, is compared. -/
theorem State.nextFrame_inside {s : State} {fr : ReplayFrame} (h : s.stream[s.frameIx + 1]? = some fr) :
    s.nextFrame = match fr.snapshot with
      | some snap =>
        if s.same snap then { s with frameIx := s.frameIx + 1, byteIx := 0 }
        else { s with frameIx := s.frameIx + 1, byteIx := 0, replayMode := .outOfSync }
      | none => { s with frameIx := s.frameIx + 1, byteIx := 0 } := by
  obtain ⟨hlen, -⟩ := List.getElem?_eq_some_iff.mp h
  refine (if_neg hlen.ne).trans ?_
  simp only [h, Option.bind_some]
  cases fr.snapshot <;> rfl

/-- Settles O53: by the replay state, and in playback by the next frame and its snapshot. -/
theorem replayAtFlyback : Obligations.ReplayAtFlyback := by
  intro s closeIc closed next
  refine ⟨run_replayFlyback_idle closeIc, run_replayFlyback_recording closeIc, fun h hlast => ?last, fun fr h hfr => ?inside⟩
  case last => rw [run_replayFlyback_playing closeIc h, State.nextFrame_last hlast]
  case inside =>
    rw [run_replayFlyback_playing closeIc h, State.nextFrame_inside hfr]
    refine ⟨fun hnone => ?_, fun snap hsnap => ⟨fun hsame => ?_, fun hdiff => ?_⟩⟩
    · rw [hnone]
    · rw [hsnap]
      exact congrArg _ (if_pos (State.same_iff.mpr hsame))
    · rw [hsnap]
      exact congrArg _ (if_neg fun hsame => hdiff (State.same_iff.mp hsame))

/-! ## The scheduler's loop (rules R641 to R643) -/

/-- The region of the time, the bound of its sub-run and its WAIT flag (rules R641 and R642). -/
theorem Cfg.region_cases (c : Cfg) (cc : Int) :
    (cc < c.cwStart ∧ c.region cc = .before) ∨
    (c.cwStart ≤ cc ∧ cc < c.cwEnd ∧ c.region cc = .inside) ∨
    (c.cwStart ≤ cc ∧ c.cwEnd ≤ cc ∧ c.region cc = .after) := by
  by_cases hstart : cc < c.cwStart
  · exact .inl ⟨hstart, if_pos hstart⟩
  · have hregion : c.region cc = if cc < c.cwEnd then .inside else .after := if_neg hstart
    by_cases hend : cc < c.cwEnd
    · exact .inr (.inl ⟨not_lt.mp hstart, hend, hregion.trans (if_pos hend)⟩)
    · exact .inr (.inr ⟨not_lt.mp hstart, not_lt.mp hend, hregion.trans (if_neg hend)⟩)

/-- The state in which a sub-run to the nearest bound begins. -/
def State.subRunning (s : State) (tic : Nat) (bound : Int) (wait : Bool) : State :=
  { s with
    targetCc := min s.target (min bound s.audioCc)
    targetIc := tic
    mode := { wait := wait, brk := true, patch := true, mmio := true, video := true, log := true }
    phase := .running true }

theorem run_subRun {s : State} {tic : Nat} (hend : s.replayMode ≠ .endOfFile) (hsync : s.replayMode ≠ .outOfSync)
    (htic : (if s.replayMode = .playing then (s.stream[s.frameIx]?.map (·.length)).getD 4294967295 else 4294967295) = tic) :
    subRun s = .ok () (s.subRunning tic s.regionBound (decide (s.cfg.region s.cc = .inside))) := by
  unfold subRun
  rw [run_bind_ok (run_get s), htic]
  unfold startRun
  rw [run_bind_ok (run_modify _ s), run_bind_ok (run_get _)]
  exact congrFun (if_neg (by simpa using ⟨hend, hsync⟩)) _

theorem run_audioOrRun (s : State) :
    audioOrRun s = if s.audioCc ≤ s.cc then audioBlock s else if s.target ≤ s.cc then answer .done s else subRun s := by
  unfold audioOrRun
  rw [run_bind_ok (run_get s), apply_ite (fun m : M Unit => m s), apply_ite (fun m : M Unit => m s)]

/-- Where no audio block is due and the target lies ahead, a sub-run begins with the region's bound and WAIT flag. -/
theorem run_audioOrRun_subRun {s : State} {tic : Nat} (hend : s.replayMode ≠ .endOfFile) (hsync : s.replayMode ≠ .outOfSync)
    (htic : (if s.replayMode = .playing then (s.stream[s.frameIx]?.map (·.length)).getD 4294967295 else 4294967295) = tic)
    (haudio : s.cc < s.audioCc) (htarget : s.cc < s.target) (hframe : s.cc < s.frameBound) :
    ∃ (bound : Int) (wait : Bool), audioOrRun s = .ok () (s.subRunning tic bound wait) ∧ s.cc < bound ∧
      (s.cc < s.cfg.cwStart → bound = s.cfg.cwStart ∧ wait = false) ∧
      (s.cfg.cwStart ≤ s.cc → s.cc < s.cfg.cwEnd → bound = s.cfg.cwEnd ∧ wait = true) ∧
      (s.cfg.cwStart ≤ s.cc → s.cfg.cwEnd ≤ s.cc → bound = s.frameBound ∧ wait = false) := by
  refine ⟨s.regionBound, decide (s.cfg.region s.cc = .inside), ?_, ?_⟩
  · rw [run_audioOrRun, if_neg (not_le.mpr haudio), if_neg (not_le.mpr htarget), run_subRun hend hsync htic]
  · unfold State.regionBound
    obtain ⟨hstart, h⟩ | ⟨hstart, hinside, h⟩ | ⟨hstart, hafter, h⟩ := s.cfg.region_cases s.cc <;> rw [h]
    · exact ⟨hstart, fun _ => ⟨rfl, rfl⟩, fun hge => absurd hstart (not_lt.mpr hge), fun hge => absurd hstart (not_lt.mpr hge)⟩
    · exact ⟨hinside, fun hlt => absurd hlt (not_lt.mpr hstart), fun _ _ => ⟨rfl, rfl⟩,
        fun _ hge => absurd hinside (not_lt.mpr hge)⟩
    · exact ⟨hframe, fun hlt => absurd hlt (not_lt.mpr hstart), fun _ hlt => absurd hlt (not_lt.mpr hafter),
        fun _ _ => ⟨rfl, rfl⟩⟩

theorem schedulerStep_live {s : State} (h : s.replayMode = .idle ∨ s.replayMode = .recording) :
    schedulerStep s = if s.cpf ≤ s.cc then flyback s else audioOrRun s := by
  unfold schedulerStep
  rw [run_bind_ok (run_get s)]
  obtain h | h := h <;> rw [h] <;> exact apply_ite (fun m : M Unit => m s) _ _ _

/-- Settles O54: the flyback, the audio block and the target in turn, and then a sub-run by the region. -/
theorem schedulerLoopLive : Obligations.SchedulerLoopLive := by
  intro s h
  have hplaying : s.replayMode ≠ .playing := by rintro he; simp [he] at h
  have hbound : s.frameBound = s.cpf := if_neg hplaying
  rw [schedulerStep_live h]
  refine ⟨fun hfly => if_pos hfly, fun hcpf haudio => ?audio, fun hcpf haudio htarget => ?target,
    fun hcpf haudio htarget => ?run⟩ <;> rw [if_neg (not_le.mpr hcpf)]
  case audio => rw [run_audioOrRun, if_pos haudio]
  case target => rw [run_audioOrRun, if_neg (not_le.mpr haudio), if_pos htarget]; rfl
  case run =>
    obtain ⟨bound, wait, hrun, -, hregion⟩ := run_audioOrRun_subRun (by rintro he; simp [he] at h)
      (by rintro he; simp [he] at h) (if_neg hplaying) haudio htarget (hbound ▸ hcpf)
    exact ⟨bound, wait, hrun, hbound ▸ hregion⟩

theorem schedulerStep_outOfSync {s : State} (h : s.replayMode = .outOfSync) :
    schedulerStep s = answer .outOfSync s := by
  unfold schedulerStep
  rw [run_bind_ok (run_get s), h]

theorem schedulerStep_endOfFile {s : State} (h : s.replayMode = .endOfFile) :
    schedulerStep s = answer .endOfFile s := by
  unfold schedulerStep
  rw [run_bind_ok (run_get s), h]

theorem schedulerStep_playing {s : State} {fr : ReplayFrame} (h : s.replayMode = .playing)
    (hfr : s.stream[s.frameIx]? = some fr) :
    schedulerStep s =
      if s.ic = fr.length then
        if s.cpf ≤ s.cc ∧ s.byteIx = fr.inputs.length then flyback s else .ok () { s with replayMode := .outOfSync }
      else if s.cpf + s.cfg.replaySlack ≤ s.cc then .ok () { s with replayMode := .outOfSync } else audioOrRun s := by
  unfold schedulerStep
  rw [run_bind_ok (run_get s), h]
  simp only [hfr, State.frameBound, h, if_true, Bool.and_eq_true, decide_eq_true_eq]
  split_ifs <;> rfl

/-- Settles O55: by the replay state, in playback by the instruction count and the frame's slack. -/
theorem schedulerLoopReplay : Obligations.SchedulerLoopReplay := by
  intro s
  refine ⟨fun h => ?sync, fun h => ?eof, fun fr h hfr => ?playing⟩
  case sync => exact schedulerStep_outOfSync h
  case eof => exact schedulerStep_endOfFile h
  case playing =>
    have hbound : s.frameBound = s.cpf + s.cfg.replaySlack := if_pos h
    rw [schedulerStep_playing h hfr]
    refine ⟨fun hic hcpf hin => ?fly, fun hic hlost => ?early, fun hic hlate => ?late, fun hic hslack => ?inside⟩
    case fly => rw [if_pos hic, if_pos ⟨hcpf, hin⟩]
    case early => rw [if_pos hic, if_neg (by omega)]
    case late => rw [if_neg hic, if_pos hlate]
    case inside =>
      rw [if_neg hic, if_neg (not_le.mpr hslack)]
      refine ⟨fun haudio => ?_, fun haudio htarget => ?_, fun haudio htarget => ?_⟩
      · rw [run_audioOrRun, if_pos haudio]
      · rw [run_audioOrRun, if_neg (not_le.mpr haudio), if_pos htarget]; rfl
      · rw [← hbound]
        exact run_audioOrRun_subRun (by simp [h]) (by simp [h]) (by simp [h, hfr]) haudio htarget (hbound ▸ hslack)

/-! ## The host's replay operations (rules R660 to R663, R668) -/

/-- The state after an operation that answers `done`. -/
def State.doneWith (s : State) : State := { s with results := s.results ++ [.done], phase := .suspended }

theorem run_moveReplay (src dst : ReplayMode) (s : State) :
    moveReplay src dst s = if s.replayMode = src then .ok () ({ s with replayMode := dst } : State).doneWith
      else .error (.refused .badReplayTransition) s := by
  unfold moveReplay
  rw [run_bind_ok (run_get s)]
  exact apply_ite (fun m : M Unit => m s) _ _ _

theorem run_stopRecording (s : State) :
    stopRecording s = if s.replayMode = .recording then
        .ok () ({ s with replayMode := .idle, recBytes := [], recSnap := none } : State).doneWith
      else .error (.refused .badReplayTransition) s := by
  unfold stopRecording
  rw [run_bind, run_moveReplay]
  split_ifs <;> rfl

theorem run_startRecording (s : State) :
    startRecording s = if s.replayMode = .idle ∨ s.replayMode = .endOfFile then
        .ok () ({ s with stream := [], recBytes := [], replayMode := .recording, recSnap := some s.save } : State).doneWith
      else .error (.refused .badReplayTransition) s := by
  unfold startRecording
  rw [run_bind_ok (run_get s)]
  simp only [Bool.or_eq_true, decide_eq_true_eq]
  exact apply_ite (fun m : M Unit => m s) _ _ _

theorem run_startPlaying (stream : List ReplayFrame) (k : Nat) (s : State) :
    startPlaying stream k s = if s.replayMode = .idle ∨ s.replayMode = .outOfSync then
        match stream[k]?.bind (·.snapshot) with
        | some d =>
          if s.loadOk d then
            .ok () ({ s.load d with stream := stream, frameIx := k, byteIx := 0, replayMode := .playing } : State).doneWith
          else answer .loadFailed s
        | none => .error (.refused .badReplayTransition) s
      else .error (.refused .badReplayTransition) s := by
  unfold startPlaying
  rw [run_bind_ok (run_get s)]
  simp only [Bool.or_eq_true, decide_eq_true_eq]
  split_ifs
  · cases stream[k]?.bind (·.snapshot) with
    | none => rfl
    | some d => exact apply_ite (fun m : M Unit => m s) _ _ _
  · rfl

/-- Settles O56: each operation is taken from the replay states the table has, and refused from the others. -/
theorem replayTransitions : Obligations.ReplayTransitions := by
  intro s done
  refine ⟨run_startRecording s, run_stopRecording s, run_moveReplay _ _ s, run_moveReplay _ _ s,
    fun stream k => ⟨fun hbad => ?refused, fun fr snap hmode hfr hsnap hload => ?playing⟩⟩ <;> rw [run_startPlaying]
  case refused =>
    obtain ⟨hidle, hsync⟩ | hnone := hbad
    · exact if_neg (not_or.mpr ⟨hidle, hsync⟩)
    · have hno : stream[k]?.bind (·.snapshot) = none := Option.bind_eq_none_iff.mpr hnone
      rw [hno]
      exact ite_self _
  case playing =>
    rw [if_pos hmode, hfr, Option.bind_some, hsnap]
    exact if_pos hload

end Sys2Proof.Machine
end

section
/-! PROOFS of the family 60_exceptions.md: interrupt entry (rules R713 to R718). -/

namespace Sys2Proof.Machine

/-! ## The shared entry (rules R713 to R716) -/

theorem Regs.awake_sp (g : Regs) : g.awake.sp = g.sp := by
  unfold Regs.awake
  split <;> rfl

theorem Regs.awake_i (g : Regs) : g.awake.i = g.i := by
  unfold Regs.awake
  split <;> rfl

theorem calmPush_withRegs {s : State} {f : Regs → Regs} (h : (f s.regs).sp = s.regs.sp) :
    (s.withRegs f).calmPush = s.calmPush := by
  simp only [State.calmPush, State.withRegs_regs, calmWrite_withRegs, h]

/-- The registers at the acknowledge: awake, with the interrupt flip-flops cleared and `R` counted. -/
def Regs.acknowledging (nmi : Bool) (g : Regs) : Regs :=
  { g.awake with iff1 := false, iff2 := nmi && g.iff2, r := bumpR g.r }

theorem State.acknowledged_eq (s : State) (nmi : Bool) (ack : Int) : s.acknowledged nmi ack =
    (((s.withRegs (Regs.acknowledging nmi)).after ack).pushed s.regs.awake.pc).after 6 := by
  rw [pushed_after, State.after_after]
  rfl

theorem run_awaken (s : State) :
    modRegs (fun g => if g.halted then { g with halted := false, pc := g.pc + 1 } else g) s =
      .ok () (s.withRegs Regs.awake) := rfl

theorem withRegs_acknowledging (s : State) (nmi : Bool) :
    (((s.withRegs Regs.awake).withRegs fun g => { g with iff1 := false, iff2 := nmi && g.iff2 }).withRegs fun g =>
      { g with r := bumpR g.r }) = s.withRegs (Regs.acknowledging nmi) := by
  simp only [State.withRegs, Regs.acknowledging, Regs.awake]
  split <;> rfl

/-- The shared entry leaves `acknowledged`, goes on with the target and jumps to it. -/
theorem run_enterInterrupt {s v : State} {nmi : Bool} {ack : Int} {target : M Word} {w : Word} (hpush : s.calmPush = true)
    (hroom : s.room (ack + 6)) (htarget : target (s.acknowledged nmi ack) = .ok w v) :
    enterInterrupt nmi ack target s = .ok () (v.withRegs fun g => { g with pc := w, wz := w }) := by
  have hcalm : ((s.withRegs (Regs.acknowledging nmi)).after ack).calmPush = true :=
    (calmPush_withRegs (Regs.awake_sp s.regs)).trans hpush
  have htick : tick ack (s.withRegs (Regs.acknowledging nmi)) = .ok () ((s.withRegs (Regs.acknowledging nmi)).after ack) :=
    run_tick_room (State.room_le (k := ack + 6) hroom (by omega))
  have hpushed : push16 s.regs.awake.pc ((s.withRegs (Regs.acknowledging nmi)).after ack) =
      .ok () (s.acknowledged nmi ack) := by
    rw [run_push16 _ hcalm ((State.room_after _ _ _).mpr hroom), State.acknowledged_eq]
  unfold enterInterrupt
  rw [run_bind_ok (run_awaken s), run_bind_ok (run_modRegs _ _), run_bind_ok (run_refresh _), withRegs_acknowledging,
    run_bind_ok htick, run_bind_ok (run_theRegs _)]
  exact (run_bind_ok hpushed).trans (run_bind_ok htarget)

theorem run_completeEntry (s : State) : completeEntry s = .ok () s.entered := by
  unfold completeEntry
  rw [run_bind_ok (run_stackCheck s)]
  rfl

/-! ## Non-maskable interrupts (rule R713) -/

/-- The registers once an NMI is no longer pending and no instruction blocks. -/
def Regs.unblocked (g : Regs) : Regs := { g with nmiPending := false, intBlock := false }

theorem Regs.awake_unblocked (g : Regs) : g.unblocked.awake = g.awake.unblocked := by
  unfold Regs.awake
  cases h : g.halted <;> simp [Regs.unblocked, h]

theorem State.acknowledged_unblocked (s : State) (nmi : Bool) (ack : Int) :
    (s.withRegs Regs.unblocked).acknowledged nmi ack = (s.acknowledged nmi ack).withRegs Regs.unblocked := by
  simp only [State.acknowledged, State.withRegs_regs, State.withRegs_withRegs, Regs.awake_unblocked]
  rfl

theorem run_acceptNmi {s : State} (hpush : s.calmPush = true) (hroom : s.room 11) :
    acceptNmi s = .ok () ((s.acknowledged true 5).withRegs fun g =>
      { g with nmiPending := false, intBlock := false, pc := 0x0066, wz := 0x0066 }) := by
  have hcalm : (s.withRegs Regs.unblocked).calmPush = true := (calmPush_withRegs rfl).trans hpush
  have henter : enterInterrupt true 5 (pure 0x0066) (s.withRegs Regs.unblocked) = _ :=
    run_enterInterrupt hcalm hroom (run_pure _ _)
  rw [State.acknowledged_unblocked] at henter
  exact (run_bind_ok (run_modRegs _ s)).trans henter

/-- Settles O14: a pending NMI is the boundary's first case. -/
theorem nmiEntry : Obligations.NmiEntry := by
  intro s b hat hnmi hpush hroom
  have hact : boundaryAct execute s = ((acceptNmi >>= fun _ => completeEntry) >>= fun _ => pure none) s := by
    unfold boundaryAct
    rw [run_bind_ok (run_get s), if_pos hnmi, bind_assoc]
  rw [step_of_boundaryAct hat hact]
  exact perform_ok ((run_bind_ok (run_acceptNmi hpush hroom)).trans (run_completeEntry _))

/-! ## Maskable interrupts (rules R714 to R716) -/

/-- A maskable interrupt that is due is the boundary's second case. -/
theorem step_of_intDue {s : State} {b : Bool} (hat : s.atBoundary b) (hnmi : s.regs.nmiPending = false)
    (hint : s.intDue = true) : step s = perform (acceptInt >>= fun _ => completeEntry) s := by
  refine step_of_boundaryAct hat ?_
  unfold boundaryAct
  rw [run_bind_ok (run_get s), if_neg (by simp [hnmi]), if_pos (by exact hint), bind_assoc]

/-- Where the interrupt is accepted, the bookkeeping of an entry ends the step. -/
theorem step_of_acceptInt {s t : State} {b : Bool} (hat : s.atBoundary b) (hnmi : s.regs.nmiPending = false)
    (hint : s.intDue = true) (h : acceptInt s = .ok () t) : step s = .next t.entered :=
  (step_of_intDue hat hnmi hint).trans (perform_ok ((run_bind_ok h).trans (run_completeEntry t)))

theorem run_acceptInt_im0 {s : State} (h : s.regs.im = .im0) :
    acceptInt s = if s.cfg.intAckByte s.cc &&& 0xC7 = 0xC7 then
        enterInterrupt false 7 (pure (mkWord 0 (s.cfg.intAckByte s.cc &&& 0x38))) s
      else .error (.refused .im0NotRst) s := by
  unfold acceptInt
  rw [run_bind_ok (run_get s), h]
  by_cases hrst : s.cfg.intAckByte s.cc &&& 0xC7 = 0xC7
  · rw [if_pos hrst]
    exact congrFun (if_neg (by simpa using hrst)) s
  · rw [if_neg hrst]
    exact congrFun (if_pos (by simpa using hrst)) s

theorem run_acceptInt_im1 {s : State} (h : s.regs.im = .im1) :
    acceptInt s = enterInterrupt false 7 (pure 0x0038) s := by
  unfold acceptInt
  rw [run_bind_ok (run_get s), h]

theorem run_acceptInt_im2 {s : State} (h : s.regs.im = .im2) :
    acceptInt s = enterInterrupt false 7 (vectorRead (s.cfg.intAckByte s.cc)) s := by
  unfold acceptInt
  rw [run_bind_ok (run_get s), h]

/-- The vector is read after the push, where the store and the passed time leave the reads calm. -/
theorem run_vectorRead {s : State} {ack : Byte} (h0 : s.calmRead (mkWord s.regs.i ack) = true)
    (h1 : s.calmRead (mkWord s.regs.i ack + 1) = true) (hroom : s.room 19) :
    vectorRead ack (s.acknowledged false 7) = .ok ((s.acknowledged false 7).wordAt (mkWord s.regs.i ack))
      ((s.acknowledged false 7).after 6) := by
  have hi : (s.acknowledged false 7).regs.i = s.regs.i := Regs.awake_i s.regs
  have hcalm (a : Word) : (s.acknowledged false 7).calmRead a = s.calmRead a := by
    simp [State.acknowledged, State.pushed]
  have hroom6 : (s.acknowledged false 7).room 6 := by
    simp only [State.acknowledged, State.room_after]
    exact hroom
  unfold vectorRead
  rw [run_bind_ok (run_theRegs _), hi, run_mr16 ((hcalm _).trans h0) ((hcalm _).trans h1) hroom6]

/-- Settles O15: the second case of the boundary, by the interrupt mode. -/
theorem interruptEntry : Obligations.InterruptEntry := by
  intro s b hat hnmi hint ack t
  refine ⟨fun him hbad => ?refused, fun him hrst hpush hroom => ?im0, fun him hpush hroom => ?im1,
    fun him hpush h0 h1 hroom => ?im2⟩
  case refused =>
    have hrun : acceptInt s = .error (.refused .im0NotRst) s := (run_acceptInt_im0 him).trans (if_neg hbad)
    rw [step_of_intDue hat hnmi hint, perform, run_bind_error hrun]
  case im0 =>
    refine step_of_acceptInt hat hnmi hint ?_
    rw [run_acceptInt_im0 him, if_pos hrst, run_enterInterrupt hpush hroom (run_pure _ _)]
  case im1 =>
    refine step_of_acceptInt hat hnmi hint ?_
    rw [run_acceptInt_im1 him, run_enterInterrupt hpush hroom (run_pure _ _)]
  case im2 =>
    refine step_of_acceptInt hat hnmi hint ?_
    rw [run_acceptInt_im2 him, run_enterInterrupt hpush (State.room_le hroom (by decide))
      (run_vectorRead h0 h1 hroom)]

end Sys2Proof.Machine
end

section
/-! PROOFS of the family 70_reset_and_hazards.md: snapshots, the debugger's reads, and the CPU reset. -/

namespace Sys2Proof.Machine

/-! ## Snapshots (rules R753 and R754) -/

theorem zipWith_load_snap (mem : Memory) : List.zipWith Block.load mem (mem.map Block.snap) = mem := by
  rw [List.zipWith_map_right, List.zipWith_self]
  exact List.map_id mem

theorem zipWith_load_linkSnap (chain : List Link) : List.zipWith Link.load chain (chain.map Link.snap) = chain := by
  rw [List.zipWith_map_right, List.zipWith_self]
  exact List.map_id chain

theorem Memory.data_wf {m : Memory} {b : Block} (h : m.wf = true) (hb : b ∈ m) :
    sparseWf unlistedByte b.len 0 b.data = true := by
  have hwf : b.wf = true := Memory.wf_of_block? h (Memory.block?_of_mem h hb)
  simp only [Block.wf, Bool.and_eq_true] at hwf
  obtain ⟨⟨-, hdata⟩, -⟩ := hwf
  exact hdata

/-- A sound machine's own snapshot passes the checks of `Load`. -/
theorem State.loadOk_save {s : State} (hinv : s.Inv) (hpaging : pagingOk s.chain = true)
    (hpatterns : ∀ l ∈ s.chain, l.badPattern = false) (hcpf : s.cfg.geometryOk s.cpf = true) (hcc : inI32 s.cc = true)
    (hic : s.ic < 4294967296) : s.loadOk s.save = true := by
  obtain ⟨hwf, -, hpages, hhead⟩ := hinv
  have hdata (b : Block) (hb : b ∈ s.mem) : sparseWf unlistedByte b.len 0 b.data = true := Memory.data_wf hwf hb
  simp only [State.loadOk, State.save, zipWith_load_linkSnap]
  simpa [hpages, hhead, hpaging, hcpf, hcc, hic, Block.snap] using ⟨hdata, hpatterns⟩

/-- Loading a machine's own snapshot forgets the exits pending at the boundary, and changes no more. -/
theorem State.load_save (s : State) : s.load s.save =
    { s with pendingExit := none, execBpSkip := none, nextHandle := max s.nextHandle s.pages.freshHandle } := by
  simp only [State.load, State.save, zipWith_load_snap, zipWith_load_linkSnap]

theorem run_loadSnapshot (d : Snapshot) (s : State) :
    loadSnapshot (some d) s = if s.loadOk d then answer .loaded (s.load d) else answer .loadFailed s := by
  unfold loadSnapshot
  rw [run_bind_ok (run_get s)]
  exact apply_ite (fun m : M Unit => m s) _ _ _

/-- The host's debugger read answers and changes nothing. -/
theorem run_hostOp_debugRead {s : State} {q : DebugRead} {v : DebugValue} (h : s.debugRead q = some v) :
    hostOp (.debugRead q) s = .ok () { s with results := s.results ++ [.read v], phase := .suspended } := run_debugRead h

/-- Settles O57: the machine's own snapshot passes the checks and loads the machine; the reads answer and leave the state. -/
theorem saveThenLoad : Obligations.SaveThenLoad := by
  intro s answered
  refine ⟨fun hinv hpaging hpatterns hcpf hcc hic => ⟨max s.nextHandle s.pages.freshHandle, ?own⟩, rfl, fun d hbad => ?failed,
    rfl, run_hostOp_debugRead rfl, run_hostOp_debugRead rfl, run_hostOp_debugRead rfl, fun b k c hc => ?cell⟩
  case own =>
    rw [run_loadSnapshot, if_pos (State.loadOk_save hinv hpaging hpatterns hcpf hcc hic), State.load_save]
    rfl
  case failed =>
    rw [run_loadSnapshot, hbad]
    rfl
  case cell => exact run_hostOp_debugRead (congrArg (Option.map _) hc)

/-! ## The CPU reset (rule R751) -/

/-- Settles O60: the registers are written first, and reset handlers without effects change each device by itself. -/
theorem resetOperation : Obligations.ResetOperation := by
  intro s hcalm
  change resetCpu s = _
  unfold resetCpu
  rw [run_bind_ok (run_modify _ s), run_bind_ok (run_get _), run_bind_ok (run_lifecycle hcalm)]
  rfl

end Sys2Proof.Machine
end

section
/-! PROOFS of the remaining family: words written out from the encodings. -/

namespace Sys2Proof.Machine

/-- Settles O3: the decoder evaluates on each word. -/
theorem sampleWords : Obligations.SampleWords := by
  unfold Obligations.SampleWords
  decide

end Sys2Proof.Machine
end
